-- ==== Sys2Proof/Word.lean ====
section
/-!
DEFINITION. The plain data types of the model: the 32-bit register word (00_scope.md R5), the byte, the sparse maps
that hold what the device has many of, and the byte-order of a word (R5: little-endian).
-/
namespace Sys2Proof

/-- A register word (R5). -/
abbrev Word := BitVec 32

/-- One byte. -/
abbrev Byte := BitVec 8

/-- A sparse map: pairs of a key and a value, keys strictly rising, no value equal to the map's default. -/
abbrev FMap (α : Type) := List (Nat × α)

/-- A run of bytes, lowest address first. -/
abbrev Bytes := List Byte

/-- A logical core: isle × 256 + core row × 16 + core column, the bits [43:29] of its wafer addresses (R9). -/
abbrev CoreId := Nat

/-- The value of a little-endian run of bytes. -/
def leNat : Bytes → Nat
  | [] => 0
  | b :: bs => b.toNat + 256 * leNat bs

/-- The `n` little-endian bytes of a number. -/
def natLe : Nat → Nat → Bytes
  | 0, _ => []
  | n + 1, v => BitVec.ofNat 8 v :: natLe n (v / 256)

/-- Bits `[hi:lo]` of a number. -/
def bits (v hi lo : Nat) : Nat := (v >>> lo) % 2 ^ (hi + 1 - lo)

/-- A number from 0 or 1. -/
def b2n (b : Bool) : Nat := if b then 1 else 0

end Sys2Proof
end

