-- ==== Sys2Proof/Machine/Code.lean ====
section
/-!
DEFINITION. The device's 544-bit code (10_cabinet.md R302, R303) and the CRC-32 of strait flits (09_straits_and_stall_wave.md R267). A read is
given by its error pattern: the bits in which the codeword read differs from the codeword stored; the code is linear, so the
syndrome of the codeword read is that of the pattern.
-/
namespace Sys2Proof.Machine

/-- x times alpha in GF(2^8) under x^8 + x^4 + x^3 + x^2 + 1. -/
def gfDouble (x : Nat) : Nat := if 128 ≤ x then (2 * x - 256) ^^^ 0x1D else 2 * x

/-- alpha^n. -/
def gfPow : Nat → Nat
  | 0 => 1
  | n + 1 => gfDouble (gfPow n)


/-- The product of two field elements (Horner over the bits of `y`, from the top). -/
def gfMul (x y : Nat) : Nat :=
  (List.range 8).foldl (fun acc i => gfDouble acc ^^^ (if y / 2 ^ (7 - i) % 2 = 1 then x else 0)) 0

/-- C(k) of a line's 128 data symbols by Horner's rule from the last symbol (R302 item 4). -/
def checkByte (syms : List Nat) (k : Nat) : Nat :=
  syms.foldr (fun v acc => v ^^^ gfMul acc (gfPow k)) 0

/-- The 128 data symbols of a 512-bit number. -/
def symbols (d : Nat) : List Nat := (List.range 128).map (fun i => d / 2 ^ (4 * i) % 16)

/-- The 32 check bits of a line. -/
def checkBits (d : Nat) : Nat :=
  let s := symbols d
  checkByte s 0 + 2 ^ 8 * checkByte s 1 + 2 ^ 16 * checkByte s 2 + 2 ^ 24 * checkByte s 3

/-- The syndrome of an error pattern (R303). -/
def syndrome (err : BitVec 544) : Nat :=
  checkBits (err.toNat % 2 ^ 512) ^^^ (err.toNat / 2 ^ 512)

/-- What the decoder concludes (R303): no error, data symbol corrected by a value, check symbol corrected, uncorrectable. -/
inductive Decoded where
  | clean
  | data (sym e : Nat)
  | check (sym : Nat)
  | bad
deriving DecidableEq, Repr

/-- R303. -/
def decodeSyn (t : Nat) : Decoded :=
  let nib := (List.range 8).filter (fun s => t / 2 ^ (4 * s) % 16 ≠ 0)
  if t = 0 then .clean
  else match nib with
  | [s] => .check s
  | _ =>
    let t0 := t % 256
    let t1 := t / 2 ^ 8 % 256
    let t2 := t / 2 ^ 16 % 256
    let t3 := t / 2 ^ 24 % 256
    if t0 = 0 ∨ 16 ≤ t0 then .bad
    else
      match (List.range 128).find? (fun i => gfMul t0 (gfPow i) = t1) with
      | none => .bad
      | some i => if gfMul t0 (gfPow (2 * i)) = t2 ∧ gfMul t0 (gfPow (3 * i)) = t3 then .data i t0 else .bad

/-- The decision on an error pattern. -/
def decodeErr (err : BitVec 544) : Decoded := decodeSyn (syndrome err)

/-- Does the decoder's correction restore the stored data? Where it does not (an error of more symbols than the code detects), the data
read differ from the stored data by what remains. -/
def residue (err : BitVec 544) : Nat :=
  let d := err.toNat % 2 ^ 512
  match decodeErr err with
  | .data i e => d ^^^ (e * 2 ^ (4 * i))
  | .clean => d
  | .check _ => d
  | .bad => 0

/-- A line's bytes with the bits of a pattern turned over. -/
def xorLine (line : Bytes) (d : Nat) : Bytes := natLe 64 (leNat line ^^^ d)

/-- One bit of the CRC-32 register (polynomial 0x04C1_1DB7). -/
def crcBit (r : Nat) (b : Bool) : Nat :=
  let top := decide (2 ^ 31 ≤ r)
  let r := 2 * r % 2 ^ 32
  if top != b then r ^^^ 0x04C11DB7 else r

/-- The CRC-32 over the bits of a number of `n` bits, most significant bit first, from 0xFFFF_FFFF (R267 item 4). -/
def crc32 (v : Nat) : Nat → Nat → Nat
  | 0, r => r
  | n + 1, r => crc32 v n (crcBit r (v / 2 ^ n % 2 == 1))

end Sys2Proof.Machine
end

