-- ==== Sys2Proof/Config.lean ====
section
/-!
DEFINITION. What the spec leaves open or the silicon fixes: values without a body where nothing is stated (a statement about them holds for
every value), and the named values of the assumption log.
-/
namespace Sys2Proof.Config

/-- Bytes the spec leaves open, as those of a dropped read (R175 item 1: "returns unpredictable data"): the count of free values taken, the place. -/
opaque freeByte : Nat → Nat → BitVec 8

/-- 64-bit values the spec calls unpredictable (R549): the count of free values taken, the place. -/
opaque freeWord64 : Nat → Nat → BitVec 64

/-- An entry of accumulator memory whose contents are undefined (R121): the start, the core's losses of its contents since, the core, and the
entry's place in its memory. -/
opaque freeAcc : Nat → Nat → Nat → Nat → BitVec 32

/-- The platform descriptor record of a handle (R552 item 4: the spec names the request and states no record). -/
opaque pdr : Nat → List (BitVec 8)

/-- 32-bit values the spec leaves open: the count of free values taken, the place. -/
opaque freeWord : Nat → Nat → BitVec 32

end Sys2Proof.Config
end

