-- ==== Sys2Proof/Syntax.lean ====
section
/-!
DEFINITION. The commands of the block: one constructor of `Instr` per row of spec/opcode_table.json, with the row's
operands. Score instructions carry the fields of their encodings (08_instruction_reference.md, Tables 8-4 to 8-9) and the
core that issues them; events carry what the device's surroundings or its analogue parts supply (a converter's code, a
sensor's reading, a packet, the bytes a host read returned).
-/
namespace Sys2Proof

/-- The source tag action of R184 and Table 8-2. -/
inductive SrcAct where
  | none | read | drain
deriving DecidableEq, Repr

/-- The tag action field of an instruction (R222). -/
structure Ta where
  src : SrcAct
  fill : Bool
deriving DecidableEq, Repr

/-- Who reaches a register or begins a transaction (R6, R508). -/
inductive Requester where
  | pf | vf (n : Nat) | bmc | sec | pwc | sch | ic (i : Nat)
deriving DecidableEq, Repr

/-- One conversion whose converter code is not the true count (R42, R52): group slot, window, bit-plane, attempt
(0 first conversion, 1 re-conversion, 2 after a rewrite, 3 a step of another window held during a rewrite that R58 ends), logical column
and the code read. -/
structure Conv where
  slot : Nat
  win : Nat
  bit : Nat
  att : Nat
  col : Nat
  code : Nat
deriving DecidableEq, Repr

/-- One level of one column as a margin slot measures it (R62): where the converter resolves the line in fine mode, in 1/64 level. -/
structure LevelMeas where
  col : Nat
  level : Nat
  pos : Nat
deriving DecidableEq, Repr

/-- The margin sweep of one array (R65, R70): its isle, site and physical number, and the levels measured off their place. -/
structure ArrSweep where
  isle : Nat
  site : Nat
  arr : Nat
  levels : List LevelMeas
deriving DecidableEq, Repr

/-- What one array's calibration slot observes: logical array, levels measured, rows read (row, its 1,056 bits). -/
structure CalObs where
  arr : Nat
  levels : List LevelMeas
  rows : List (Nat × Nat)
deriving DecidableEq, Repr

/-- A line whose codeword is found in error as it is read: its space, its number in the space, correctable or not (R116, R180). -/
structure LineErr where
  space : Nat
  line : Nat
  corr : Bool
deriving DecidableEq, Repr

/-- An instruction's accesses: its tag actions (R222), and the errors that its reads of lines meet (R116, R180). -/
structure Access where
  ta : Ta
  errs : List LineErr
deriving DecidableEq, Repr

/-- What a product observes: conversions that miscount, and the errors of the lines that it reads (R42, R116, R180). -/
structure MvmObs where
  convs : List Conv
  errs : List LineErr
deriving DecidableEq, Repr

/-- What a calibration round of an array observes: levels measured off their place, and rows that differ from what is stored (R65). -/
structure RoundObs where
  levels : List LevelMeas
  rows : List (Nat × Nat)
deriving DecidableEq, Repr

/-- The tray of a scatter: its pointer, and the errors that the reads of its lines meet (R155, R180). -/
structure TrayPtr where
  ptr : Nat
  errs : List LineErr
deriving DecidableEq, Repr

/-- A codeword of score memory as the sequencer reads it, with its error pattern (R195). -/
structure ScoreRead where
  codeword : Nat
  err : BitVec 544
deriving DecidableEq, Repr

/-- A stall wave at a core: has one of its three wires there been outvoted (R278)? -/
structure WaveAt where
  core : CoreId
  outvoted : Bool
deriving DecidableEq, Repr

/-- A flit on a strait: its channel, and its place in the channel's replay buffer (R268). -/
structure FlitAt where
  ch : Nat
  place : Nat
deriving DecidableEq, Repr

/-- A scheduled line (Table 9-1): source core, destination core and space, line number, 64 data bytes and sideband. -/
structure MeshLine where
  src : CoreId
  core : CoreId
  space : Nat
  line : Nat
  data : Bytes
  fill : Bool
  poison : Bool
  lane : Nat
  last : Bool
deriving DecidableEq, Repr

/-- A VC3 message (Table 9-1, `KIND`). -/
inductive Vc3Msg where
  | sync (ctr add : Nat)
  | laneState (part : Nat) (core : CoreId) (lane : Nat) (word : Bytes)
  | void (core : CoreId) (entry : Nat)
  | sheetLine (core : CoreId) (lane : Nat) (data : Bytes)
deriving DecidableEq, Repr

/-- Class U sources of a core's U port (R177). -/
inductive USrc where
  | sheet | vc3 | vc2 | isleCtl | host
deriving DecidableEq, Repr

/-- The three kinds of host ring (R380, R542). -/
inductive RingKind where
  | sq | cq | ev
deriving DecidableEq, Repr

/-- What one poll read for one ring (R382): function, ring, whether the reads succeeded, the index the host keeps, the index the
device keeps there, and the records fetched. -/
structure PollRead where
  fn : Nat
  kind : RingKind
  q : Nat
  ok : Bool
  hostIdx : Nat
  devIdx : Nat
  recs : List Bytes
deriving DecidableEq, Repr

/-- The issuer of a critical command (R528): the PF's mailbox, or a record the BMC sends. -/
inductive CmdSrc where
  | pf
  | bmc (record : Bytes)
deriving DecidableEq, Repr

/-- A causeway packet (Table 14-1): header fields, kind data and payload lines. -/
structure Packet where
  fvc : Nat
  kind : Nat
  hops : Nat
  lseq : Nat
  lack : Nat
  ackv : Bool
  nak : Bool
  dest : Nat
  src : Nat
  flow : Nat
  eseq : Nat
  credit : List Nat
  kd : Bytes
  payload : List Bytes
deriving DecidableEq, Repr

/-- A hello's contents (R399). -/
structure HelloMsg where
  ident : Nat
  port : Nat
  num : Option Nat
  lowest : Nat
  dist : Nat
deriving DecidableEq, Repr

/-- An event record (Table 21-2), unused words 0. -/
structure EvRec where
  cls : Nat
  source : Nat
  part : Nat := 15
  bit : Nat := 255
  reg : Nat := 0
  isle : Nat := 255
  site : Nat := 255
  time : Nat := 0
  seq : Nat := 0
  rep : Nat := 0
  a : Nat := 0
  b : Nat := 0
  c : Nat := 0
deriving DecidableEq, Repr

/-- The stages of R540 and R546 a record arrives at: an isle controller's staging, the central queue, the sideband queue. -/
inductive LogStage where
  | isle (i : Nat) | central | sideband
deriving DecidableEq, Repr

/-- An image slot as SEC finds it in Root (R420, R516): signature and key verify, version, whole-length verification. -/
structure SlotFacts where
  sigOk : Bool
  version : Nat
  fullOk : Bool
  digest : Bytes
  ifMin : Nat
  ifMax : Nat
deriving DecidableEq, Repr

/-- The owner region's condition (R521, R522). -/
inductive OwnerRegion where
  | erased
  | invalid
  | valid (policy pref : Nat) (key digest : Bytes)
deriving DecidableEq, Repr

/-- A repair-log record (Table 18-6) or a self-test defect, without its bookkeeping. -/
structure Defect where
  kind : Nat
  cause : Nat
  isle : Nat
  site : Nat
  element : Nat
deriving DecidableEq, Repr

/-- What SEC reads and verifies in Root of a cold start (R419 to R422, R516 to R522). -/
structure RootFacts where
  slotA : SlotFacts
  slotB : SlotFacts
  floorOk : Bool
  floor : Nat
  deviceOk : Bool
  grade : Nat
  ident : Nat
  deviceDigest : Bytes
  chain : Bytes
  owner : OwnerRegion
  pufOk : Bool
  procsOk : Bool
  stored : List Defect
  logBad : Nat
  logFreeKiB : Nat
  spareCols : List (List Nat)
  setMv : List Nat
  sensorSpare : List (Nat × Nat)
  romDigest : Bytes
  nonce : BitVec 64
deriving DecidableEq, Repr

/-- The result of one isle's power-up (R422). -/
inductive PowerUp where
  | ok | short | noRegulation | noLock
deriving DecidableEq, Repr

/-- The PLLs of Table 15-6 (R428). -/
inductive Pll where
  | isle (i : Nat) | west | east | north | south
deriving DecidableEq, Repr

/-- A current limit of R447: one isle or one plane group. -/
inductive CurUnit where
  | isle (i : Nat) | group (g : Nat)
deriving DecidableEq, Repr

/-- One comparison of R442: isle, rail, phase, measured and predicted drop in mV. -/
structure PhaseDrop where
  isle : Nat
  rail : Nat
  phase : Nat
  meas : Nat
  pred : Nat
deriving DecidableEq, Repr

/-- The firmware processors of Table 19-1. -/
inductive Proc where
  | sec | pwc | sch | ic (i : Nat)
deriving DecidableEq, Repr

/-- The transports of R524. -/
inductive Transport where
  | doe | mctp
deriving DecidableEq, Repr

/-- What a critical command's carrier fetched and verified before it acts: an image or region read, its SHA-256's first bytes,
whether its signature verifies, its version, and the new owner region of a rotation. -/
structure ImageFacts where
  readOk : Bool
  sigOk : Bool
  version : Nat
  digest8 : Bytes
  identOk : Bool
  owner : OwnerRegion
deriving DecidableEq, Repr

/-- The kinds of proxy message (R410). -/
inductive ProxyMsg where
  | create (part : Nat) (prompt : List Nat) (sampling : List Bytes) (submit : Bytes)
  | draftToken (entry token : Nat)
  | roundResult (entry accept token : Nat)
deriving DecidableEq, Repr

/-- What the self-test of a start finds: defects, and the margins of its sweeps (R424, R70). -/
structure SelfTest where
  found : List Defect
  sweeps : List ArrSweep
deriving DecidableEq, Repr

/-- The margin sweep of an isle that comes back from retention (R65, R456). -/
structure IsleSweep where
  isle : Nat
  sweeps : List ArrSweep
deriving DecidableEq, Repr

/-- THE COMMANDS: one constructor per row of spec/opcode_table.json, in the table's order. -/
inductive Instr where
  -- score instructions: control slot (Table 8-4)
  | ctlPld (core : CoreId) (ta : Ta) (pt pb wo : Nat) (errs : List LineErr)
  | ctlPadd (core : CoreId) (pt : Nat) (imm : Int)
  | ctlLoop (core : CoreId) (lc count len : Nat)
  | ctlJump (core : CoreId) (target : Nat)
  | ctlFlead (core : CoreId) (u f : Nat)
  | ctlLane (core : CoreId) (unit lane tensor : Nat) (dg : Bool)
  -- CIM slot (Table 8-5) and the array steps
  | cimMvm (core : CoreId) (ta : Ta) (eng first g w0 n t : Nat) (h : Bool) (fmt a : Nat) (obs : MvmObs)
  | masterCopyFetchLine (core : CoreId) (eng k : Nat) (err : BitVec 544)
  | rewriteComplete (core : CoreId) (eng : Nat) (obs : List Conv)
  | cimPre (core : CoreId) (ta : Ta) (eng t mode ps pe : Nat) (errs : List LineErr)
  | cimOut (core : CoreId) (ta : Ta) (eng t dest : Nat) (clr : Bool) (a pd : Nat) (corr unc : List Nat)
  | cimCal (core : CoreId) (emask amask : Nat) (obs : List CalObs)
  | calStarved (isle site arr : Nat)
  | icCalibrationRound (isle site arr : Nat) (obs : RoundObs)
  | spareArrayReplaced (isle site arr : Nat) (levels : List LevelMeas)
  -- attention slot (Table 8-6)
  | attPass (core : CoreId) (acc : Access) (lane asg h0 nh pp po ql : Nat) (tray exp : Bool)
  | attMerge (core : CoreId) (acc : Access) (pa pb po q : Nat) (norm exp : Bool) (lane : Nat)
  | attGemv (core : CoreId) (acc : Access) (pw fmt g w0 n a pd : Nat) (init : Bool) (h : Bool)
  -- vector slot (Table 8-8)
  | vecLd (core : CoreId) (ta : Ta) (ps a n : Nat) (corr unc : List Nat)
  | vecSt (core : CoreId) (ta : Ta) (pd a n : Nat) (errs : List LineErr)
  | vecAlu (core : CoreId) (acc : Access) (fn fmt a b c d n : Nat) (bb : Bool)
  | vecTr (core : CoreId) (acc : Access) (fn a b d n : Nat)
  | vecXl (core : CoreId) (acc : Access) (fn fmt a n d dw : Nat)
  | vecQnt (core : CoreId) (acc : Access) (fmt sf sm sc ef pe cs a pd nb j0 : Nat) (zh : Bool)
  | vecRope (core : CoreId) (acc : Access) (a d f nh lane poff : Nat)
  | scan (core : CoreId) (acc : Access) (lane a b d n : Nat)
  | samplerMerge (core : CoreId) (acc : Access) (a b d : Nat)
  | draw (core : CoreId) (acc : Access) (lane a : Nat)
  | verify (core : CoreId) (acc : Access) (lane : Nat)
  -- transfer slot (Table 8-9)
  | xfrCp (core : CoreId) (ta : Ta) (ps pd n rt : Nat) (errs : List LineErr)
  | xfrGather (core : CoreId) (ta : Ta) (pi pt n pd rt : Nat) (errs : List LineErr)
  | xfrMapload (core : CoreId) (ta : Ta) (asg pc l : Nat)
  | xfrScatter (core : CoreId) (lane asg : Nat) (py : TrayPtr) (pc nb : Nat)
  | xfrRelease (core : CoreId) (amask : Nat)
  | xfrSignal (core : CoreId) (ctr add : Nat)
  | xfrEmit (core : CoreId) (lane : Nat)
  | xfrDflush (core : CoreId) (lane : Nat)
  -- shelf, score memory
  | shfHazResume (isle site : Nat)
  | uPortGrant (core : CoreId) (errs : List LineErr)
  | shelfCorrectedWriteback (core : CoreId) (bay : Nat)
  | uSlotGroupEnd (core : CoreId) (bays : List Nat)
  | scoreEccUncorrectable (core : CoreId) (read : ScoreRead)
  | scoreCodewordRewritten (core : CoreId) (codeword : Nat) (data : Bytes)
  -- stall wave and beats
  | stallItemComplete (core : CoreId) (cause : Nat)
  | stop (part : Nat)
  | go (part : Nat)
  | coreFreeze (wave : WaveAt)
  | coreResume (wave : WaveAt)
  | start (part : Nat)
  | beatBoundary (part : Nat)
  | laneSheetIncomplete (part : Nat)
  | laneSheetDelivery (core : CoreId) (lane : Nat) (data : Bytes)
  | pauseFrame (part : Nat)
  | pauseSlot (part slot : Nat)
  -- mesh and straits
  | vc0FlitDelivery (core : CoreId) (line id : Nat)
  | linkLineArrival (id : Nat) (err : BitVec 544)
  | straitCrcCheck (isle edge : Nat) (flit : FlitAt) (err : BitVec 336)
  | straitNak (isle edge : Nat) (flit : FlitAt)
  | straitRetryLate (isle edge id : Nat)
  | vc2LineDelivery (core : CoreId) (id : Nat)
  | vc3MessageDelivery (id : Nat)
  -- cabinet
  | refreshDebtTick (isle : Nat)
  | bankRefresh (core : CoreId) (bank : Nat)
  | collisionRefreshDone (core : CoreId)
  | foregroundSegmentLine (core : CoreId) (line : Nat) (err : BitVec 544)
  | backgroundClaim (core : CoreId) (err : BitVec 544)
  | writeBufferDrain (core : CoreId)
  | rowRetirement (core : CoreId) (bank row : Nat)
  -- loads and partitions
  | partitionReconfiguration (src : CmdSrc) (desc : Bytes)
  | loadHeaderRead (part : Nat) (header : Option Bytes)
  | loadTransferDone (part : Nat) (image : Option Bytes)
  | loadProgrammed (part : Nat)
  | unload (part : Nat)
  | partitionReset (part : Nat) (image : Option Bytes)
  | enterDebugMode (src : CmdSrc)
  | debugExit (part : Nat)
  | raisePowerLimit (src : CmdSrc)
  | firmwareUpdate (src : CmdSrc)
  | firmwareUpdateDone (img : ImageFacts)
  | keyRotation (src : CmdSrc) (img : ImageFacts)
  | sparePolicyOverride (src : CmdSrc)
  | processorRestart (src : CmdSrc)
  | lockoutExpiry
  -- weight operations
  | stage (part : Nat)
  | stagingDataArrived (part off : Nat) (data : Option Bytes)
  | stagingComplete (part : Nat)
  | stagingShareWrite (rq : Requester) (part share : Nat)
  | swap (part : Nat)
  | rollback (part : Nat)
  | release (part : Nat)
  | abandon (part : Nat)
  | rewriteWaveDone (part : Nat) (bad : Option Nat)
  -- serving
  | sheetAssembly (part : Nat)
  | hostPoll (reads : List PollRead)
  | submit (fn ring : Nat) (record : Bytes) (prompt : Option (List Nat)) (bias : Option Bytes)
  | cancel (fn : Nat) (record : Bytes)
  | park (fn : Nat) (record : Bytes)
  | parkCopyDone (entry : Nat)
  | resume (fn : Nat) (record : Bytes)
  | resumePlaced (entry : Nat) (area : Option Bytes)
  | drop (fn : Nat) (record : Bytes)
  | parkExpiry (entry : Nat)
  | laneStateWordReceived (part lane : Nat) (word : Bytes)
  | voidMessage (core : CoreId) (entry : Nat)
  | releaseComplete (entry : Nat)
  | deadlineCheck
  | completionRecordWrite (fn ring : Nat)
  | msixModerationTimer (fn ring : Nat)
  | syncCounterAdd (ctr add : Nat)
  | syncCounterWrite (rq : Requester) (ctr : Nat) (v : Word)
  -- host attachment
  | dmaReadFailure (fn : Nat) (kind : RingKind) (q : Nat)
  | ringControlWrite (fn : Nat) (kind : RingKind) (q : Nat) (v : Word)
  | bar2Access (fn off len : Nat) (wr : Option Bytes)
  | dbgWindowAccess (wr : Option Word)
  | hostDrvVerWrite (fn : Nat) (v : Word)
  | vfFlr (n : Nat)
  | pfFlr
  | linkDown
  | d3hotEntry (fn : Nat)
  | d0Return (fn : Nat)
  | linkTrained
  -- transactions and registers
  | cfgTxBegin (rq : Requester) (id : Word)
  | rwtWrite (rq : Requester) (addr : Nat) (v : Word)
  | commit (rq : Requester)
  | transactionRollback (rq : Requester)
  | transactionTimeout (slot : Nat)
  | reg64LowRead (rq : Requester) (addr : Nat)
  | reg64LowWrite (rq : Requester) (addr : Nat) (v : Word)
  | reg64HighWrite (rq : Requester) (addr : Nat) (v : Word)
  | cimColStatRead (rq : Requester) (isle : Nat)
  | registerWrite (rq : Requester) (addr : Nat) (v : Word)
  | powerLimitWrite (v : Word)
  | parkRequest (isle : Nat) (on : Bool)
  -- start, clocks, resets
  | sysResetWarm (rq : Requester) (v : Word)
  | sysResetCold (rq : Requester) (v : Word)
  | sidebandResetRequest (v : Word)
  | perstAssertion
  | inputPowerApplied
  | inputPowerLoss
  | auxComplete
  | rootComplete (facts : RootFacts)
  | islePowerUp (res : PowerUp)
  | poweringComplete
  | testingComplete (test : SelfTest)
  | mappedComplete
  | stateLimitExceeded
  | pllLockLoss (pll : Pll)
  -- power
  | powerControlPeriod (inW inCv : Nat) (draws : List (Nat × Nat))
  | crackCheck (drops : List PhaseDrop)
  | phaseRetired (isle rail phase : Nat)
  | brickFailed
  | railOvervoltage (isle rail : Nat)
  | senseLost (isle rail : Nat)
  | isolated (isle : Nat) (vs : Bool)
  | curLimit (u : CurUnit)
  | curLimitRelease (u : CurUnit) (amps : Nat)
  | inputSample (watts : Nat)
  | groupWait (isle : Nat)
  | isleSwitchOn (isle : Nat)
  | unparkComplete (swept : IsleSweep)
  -- thermal
  | sensorSample (isle : Nat) (readings : List Int)
  | sensorSelfCheck (isle : Nat) (failed : List Nat)
  | sensorSpareMapped (isle spare : Nat) (reading : Int)
  | hwDutyTick (isle : Nat)
  | thermalForecast (fs : List (Nat × Int))
  | heatPark (isle : Nat)
  | heatUnpark (isle : Nat)
  | coolantSample (inlet outlet flow : Nat) (inRange : Bool)
  -- defects and repair
  | coreFailed (isle site item : Nat)
  | recoveryPlanned (part : Nat)
  | recoveryCopyDone (part : Nat)
  | recoveryReprogrammed (part : Nat) (image : Option Bytes)
  | recoveryRewriteDone (part : Nat)
  | isleFailed (isle : Nat) (image : Option Bytes)
  | coreRepair (isle site : Nat)
  | isleRetirement (isle : Nat) (image : Option Bytes)
  | resupply (isle site : Nat) (image : Option Bytes)
  | resupplyDone (isle site : Nat)
  -- firmware processors
  | watchdogExpiry (proc : Proc)
  | firmwareTrap (proc : Proc)
  | processorResumed (proc : Proc)
  | icLate (isle : Nat)
  | repairLogAppend
  -- causeway fabric
  | hello (port : Nat) (msg : HelloMsg)
  | helloTimer
  | neighbourTimeout (port : Nat)
  | numberRequest (port ident pref : Nat)
  | numberGrant (ident : Nat) (num : Option Nat)
  | numberHoldExpiry (num : Nat)
  | routeVector (port quarter : Nat) (entries : Bytes)
  | routeVectorTimer
  | laneFailure (port : Nat) (bad : Nat)
  | portRetrained (port : Nat)
  | packetReceive (port : Nat) (pkt : Packet) (crc : Word) (checks : List Word)
  | linkNak (port lack : Nat)
  | e2eRetransmit (dest fvc eseq : Nat)
  | transitCreditTimeout (port : Nat)
  | dataWrite (pkt : Packet)
  | counterAdd (pkt : Packet)
  | endToEndAcknowledgement (dest fvc eseq : Nat)
  | refusal (dest fvc flow : Nat)
  | gateFire (gate : Nat)
  | forwardedLaneEntries (src part : Nat) (beat : Nat) (entries : List Bytes)
  | forwardedLaneStateWord (src part lane : Nat) (word : Bytes)
  | forwardedVoid (src part entry : Nat)
  | followerEntryTimeout (part : Nat)
  | proxyMessage (src : Nat) (msg : ProxyMsg)
  | migrationGo (entry dest : Nat) (area : Option Bytes)
  | migration (src : Nat) (package : Bytes)
  -- attestation and IDE
  | getVersion (tr : Transport)
  | getCapabilities (tr : Transport)
  | negotiateAlgorithms (tr : Transport)
  | getDigests (tr : Transport)
  | getCertificate (tr : Transport) (slot off len : Nat)
  | challenge (tr : Transport) (slot : Nat) (nonce : Bytes)
  | getMeasurements (tr : Transport) (index : Nat)
  | keyExchange (tr : Transport) (sid : Nat)
  | finish (tr : Transport) (sid : Nat) (ok : Bool)
  | heartbeat (tr : Transport) (sid : Nat)
  | keyUpdate (tr : Transport) (sid : Nat)
  | endSession (tr : Transport) (sid : Nat)
  | keyProg (sid stream : Nat) (key : Bytes)
  | kSetGo (sid stream : Nat)
  | kSetStop (sid stream : Nat)
  | ideFail (stream : Nat)
  -- PLDM
  | requestUpdate (size : Nat)
  | requestFirmwareData (off : Nat) (data : Bytes)
  | cancelUpdate
  | pldmWindowExpiry
  | getPdr (handle : Nat)
  | getSensorReading (sensor : Nat)
  | getStateSensorReadings (sensor : Nat)
  | pollForPlatformEventMessage
  -- telemetry
  | eventRecordEnqueue (stage : LogStage) (record : EvRec)
  | alarm (bit : Nat) (record : EvRec)
  | eventRingWrite
  | eventRingSignalTimer
  | referenceClockLoss
  | eidAssignment (eid : Nat)
  | doeDiscovery (index : Nat)
deriving DecidableEq, Repr

end Sys2Proof
end

