-- ==== Sys2Proof/Machine/State.lean ====
section
/-!
DEFINITION. The state of the device as plain data: the register file, the memories of the cores, the execution state of the cores, the
arrays, the partitions, the request table, the logs and the messages in flight, the fault and refusal reasons, and `State.reset`.
A sparse map's unlisted key stands for the default value of its type (each type's `{}`).
-/
namespace Sys2Proof.Machine

/-- Why a behaviour is unpredictable: the error under R14 or R10 that R19 names. -/
inductive ErrCause where
  /-- An address or operand outside its space (R10, R224). -/
  | address
  /-- A reserved encoding or code (R14, R19). -/
  | encoding
  /-- A malformed record or descriptor, or an index beyond its ring (R14, R19). -/
  | record
  /-- A program that violates a contract the device does not check (R14, R193). -/
  | contract
deriving DecidableEq, Repr

/-- A step that stops. -/
inductive Fault where
  /-- Raised by a command whose operands are an error under R14 or R10: R19 calls the result unpredictable and gives no effect. SAFE:
  the model stops where the device goes on in some way within R20. -/
  | unpredictable (c : ErrCause)
deriving DecidableEq, Repr

/-- A command without a meaning. -/
inductive Refusal where
  /-- Raised by an arm of `exec` whose command has no meaning yet. SAFE: nothing is claimed of it. -/
  | notModelled (mnemonic : String)
deriving DecidableEq, Repr

/-! ## Cores -/

/-- What `CTL.LANE` sets for a unit (R235). -/
structure UnitCtx where
  lane : Nat := 0
  tensor : Nat := 0
  dg : Bool := false
deriving DecidableEq, Repr

/-- An open loop of a core sequencer (R231): its counter, first and last bundle, iterations left after this one. -/
structure OpenLoop where
  lc : Nat
  first : Nat
  last : Nat
  left : Nat
deriving DecidableEq, Repr

/-- What a class U access does (R177): it writes bytes, answers a requester with bytes read, reads the next line of a remote flow (R275), or
sets the `VOID` bit of the state word of a lane whose current view names an entry (R359). -/
inductive UAct where
  | write (data : Bytes)
  | read (len : Nat) (rq : Requester)
  | flow (id k : Nat)
  | void (entry : Nat)
deriving DecidableEq, Repr

/-- A class U access waiting at a core's U port (R177): source, space and offset, what it does, arrival cycle. -/
structure UAcc where
  src : USrc
  space : Nat
  off : Nat
  act : UAct
  at_ : Nat
deriving DecidableEq, Repr

/-- The scatter that a placed position belongs to (R258): assignment, lane, tray wafer address, map cache offset, map index, first position; the
flow that pulls a remote tray. -/
structure Scatter where
  asg : Nat
  lane : Nat
  tray : Nat
  pc : Nat
  m : Nat
  p0 : Nat
  flow : Option Nat := none
deriving DecidableEq, Repr

/-- An instruction under way in its unit: its fields; the offsets of its pointer operands and the unit's context as they stood when it issued;
the cycle of its issue; its latency or fetch lead; the part that comes next (R226); what it has read so far; whether a dropped read makes what
it writes unpredictable (R175); the poison causes it has met (R85). -/
structure Job where
  instr : Instr
  offs : List Nat := []
  ctx : UnitCtx := {}
  at_ : Nat := 0
  lat : Nat := 0
  k : Nat := 0
  got : Bytes := []
  held : Bytes := []
  bad : Bool := false
  causes : List Nat := []
deriving DecidableEq, Repr

/-- What a unit of a core does in one cycle of its score time. -/
inductive Act where
  /-- A part of an instruction: its reads, and what follows from them. -/
  | part (j : Job)
  /-- Bytes written inside one line of the shelf or an operand buffer, with or without the Fill action. -/
  | write (space off : Nat) (data : Bytes) (fill : Bool)
  /-- A codeword of a tile row written (R117, R120). -/
  | row (eng t line : Nat) (es : List Nat)
  /-- A product's final write: entries with their tree results and events (R112, R114), the code errors that its read half meets (R116). -/
  | add (eng t : Nat) (outs : List (Nat × Nat × Nat)) (errs : List LineErr)
  /-- A pointer register, a fetch lead, a unit's context set (R229, R230, R234, R235). -/
  | ptr (i : Nat) (v : BitVec 48)
  | lead (u f : Nat)
  | lane (u : Nat) (ctx : UnitCtx)
  /-- A stall item of the unit raised, of a length if it has one (R56). -/
  | item (cause : Nat) (len : Option Nat)
  /-- A segment request of a foreground read (R294): the cabinet lines it asks for, each with its place in the segment. -/
  | segment (lines : List (Nat × Nat))
deriving DecidableEq, Repr

/-- One class S access to the shelf in a cycle: its port, its line, wide or narrow, read or write, the words that a write writes (R169, R171). -/
structure Acc where
  port : Nat
  line : Nat
  wide : Bool
  wr : Bool := false
  mask : BitVec 16 := 0
deriving DecidableEq, Repr

/-- A pending operation of a core: the score cycle in which it happens, the requester port it uses (Table 6-1), its accesses to the shelf. -/
structure Op where
  at_ : Nat
  port : Nat
  act : Act
  accs : List Acc := []
deriving DecidableEq, Repr

/-- Steps of one slot and window that wait for a rewrite (R53): slot, window, the bit-planes to convert after it, and the held
steps of other windows (window, bit-plane), and what the last conversions of the former read (R58 item 2). -/
structure Rewrite where
  slot : Nat
  win : Nat
  bitsHeld : List Nat
  others : List (Nat × Nat)
  last : List Conv
deriving DecidableEq, Repr

/-- A CIM product that waits for a window rewrite (R53 to R58): its operands, the miscounts accepted so far, the step at which it
resumes, the rewrites outstanding (the first is running), the line the running rewrite takes next, the poison causes it met, the slots and
windows whose rewrite met an uncorrectable line (R58), the steps to convert again (slot, step, attempt), the activations it was issued with
(slot x 16 + window: scale code and elements), the current lane and the score cycle of its final write (R114), the code errors that write meets (R116). -/
structure Mvm where
  first : Nat
  g : Nat
  w0 : Nat
  n : Nat
  t : Nat
  h : Bool
  fmt : Nat
  a : Nat
  acc : List Conv
  obs : List Conv
  next : Nat
  rewrites : List Rewrite
  row : Nat
  causes : List Nat
  faulted : List (Nat × Nat) := []
  redo : List (Nat × Nat × Nat) := []
  acts : FMap (Nat × List Int) := []
  lane : Nat := 0
  final : Nat := 0
  errs : List LineErr := []
deriving DecidableEq, Repr

/-- What a background claim does when its slot comes (R296): a line of a flow read or written, a corrected line written back, the isle
controller's reads for scrub and fills (logical array, first row) and its row copy, a write or read over VC3, a line read or written for the parking or resuming of a request, a line of a gate's chunk (R296 item 5, R406). The patrol
read (item 6) always waits and needs no entry. -/
inductive ClaimKind where
  | flow (id k : Nat)
  | flowWrite (data : Bytes)
  | corrected
  | scrub (arr row : Nat)
  | fill (arr row : Nat)
  | rowCopy
  | write (data : Bytes)
  | read (len : Nat) (rq : Requester)
  | park (entry : Nat)
  | restore (entry : Nat) (data : Bytes)
  | gate (g : Nat)
deriving DecidableEq, Repr

/-- A waiting background claim of a cabinet slice (R296): priority, cabinet offset, kind. -/
structure Claim where
  prio : Nat
  off : Nat
  kind : ClaimKind
deriving DecidableEq, Repr

/-- The execution state of one logical core. -/
structure Core where
  /-- Pointer registers (R223). -/
  pts : FMap (BitVec 48) := []
  /-- Loop counters: iterations left (R223). -/
  lcs : FMap Nat := []
  /-- Fetch leads of the attention and the transfer engine (R223, R234). -/
  flA : Nat := 16
  flX : Nat := 16
  /-- The next bundle and the score cycle of the beat in which it issues (R197). -/
  next : Nat := 0
  nextAt : Nat := 0
  loops : List OpenLoop := []
  /-- The current lane, tensor and digest enable of each unit (R235). -/
  units : FMap UnitCtx := []
  /-- The poison flag of each lane in this beat (R86). -/
  poison : BitVec 32 := 0
  /-- The lanes whose flag the core was passed or raised in this beat, already recorded in the event log: registers logged (R106, R127, R190). -/
  logged : List Nat := []
  /-- The tags that are Full: space 0 and 4 lines (R184). -/
  tags : FMap Bool := []
  /-- Where the transfer engine keeps the cached drawer map records: assignment x 32 + lane to
1 + map index + 8,192 x shelf offset (R149). -/
  maps : FMap Nat := []
  /-- CIM products waiting for a rewrite, by engine. -/
  susp : FMap (List Mvm) := []
  /-- Corrected lines to write back (space, line) (R180). -/
  wback : List (Nat × Nat) := []
  /-- Class U accesses waiting, oldest first, and the round robin position (R177). -/
  uq : List UAcc := []
  urr : Nat := 0
  /-- Score-memory codewords found uncorrectable and not yet rewritten (R195). -/
  scoreBad : List Nat := []
  /-- Lines whose codeword is uncorrectable: shelf, operand buffer, accumulator and cabinet line addresses (R116, R180, R304); the syndrome
of a cabinet line among them (R312). -/
  bad : List Nat := []
  badSyn : FMap Nat := []
  /-- A core frozen by the stall wave, and since when (R279, R300). -/
  frozen : Bool := false
  frozenAt : Nat := 0
  /-- Score time (R198): cycles begun since the layout's start, so that the current cycle is `clk` - 1. -/
  clk : Nat := 0
  /-- Operations of issued instructions that are still to come, by cycle; whether the core runs in this core cycle, so that those of its current
score cycle have still to happen. -/
  ops : List Op := []
  live : Bool := false
  /-- U-slots (R176, R177): the bays that had one in the group under way, the bays that had none in the group that has ended, the cycle after
the last grant, and by bay the cycle after its last write-back. -/
  slots : List Nat := []
  missed : List Nat := []
  uAt : Nat := 0
  wbAt : FMap Nat := []
  /-- Calibration slots (R59, R60), by logical array: the score cycle after the last slot, and the arrays whose present gap was found too long. -/
  calEnd : FMap Nat := []
  starved : List Nat := []
  /-- Draws made for a lane in this beat (R354). -/
  draws : FMap Nat := []
  /-- Of the last pass for a lane: layer, first head, heads, query heads of a head, first position (log entry 105). -/
  passes : FMap (List Nat) := []
  /-- Lanes whose next view names a voided entry (R359 item 3). -/
  voidNext : List Nat := []
  /-- Digest accumulation since a lane's last flush (R549, R550): elements added and the unit that added them, by lane x 64 + slot, the
`TENSOR` bases used by lane, newest first, and the lanes whose next record is unpredictable. -/
  digN : FMap Nat := []
  digU : FMap Nat := []
  digBase : FMap (List Nat) := []
  digBad : List Nat := []
  /-- The slice: refresh debt of each bank (R298), the lines waiting in the write buffer, oldest first (R295: memory already shows
  them), waiting claims (R296), retired rows (bank x 4096 + row to its spare plus one), spare rows used by bank (R307, R308), the
  corrected lines (R306: 2 where the correction falls in this patrol pass, 1 where in an earlier one), and the line the patrol reads next (R305). -/
  debts : FMap Nat := []
  /-- Foreground lines asked for and not yet at the port: line, and the score cycle in which the port serves it (R294, R299). -/
  due : List (Nat × Nat) := []
  wbuf : List Nat := []
  claims : List Claim := []
  rowMap : FMap Nat := []
  spareUsed : FMap Nat := []
  rowCorr : FMap Nat := []
  /-- Rows whose copy to a spare row is under way or done (bank x 4096 + row) (R307). -/
  rowWait : List Nat := []
  patrol : Nat := 0
  /-- Accumulator memory (R121): the lines written since its contents were last undefined (1), and the model's own count of the times that a
  partition reset or a core repair left them undefined. -/
  acc : FMap Nat := []
  accGen : Nat := 0
deriving DecidableEq, Repr

/-! ## Arrays -/

/-- One physical column of an array, by its `CIM_SEL.COL` code (R62, R64): margin of the last completed round, its level, the least margin
so far in this round, retirement candidacy, fill in progress. A column not listed has the full margin of 32. -/
structure Col where
  margin : Nat := 32
  level : Nat := 0
  least : Nat := 32
  leastAt : Nat := 0
  cand : Bool := false
  fill : Bool := false
  /-- Times that the column's trims were recomputed ahead of the round's end (R64 item 1): the model's stand-in for their values. -/
  trims : Nat := 0
deriving DecidableEq, Repr

/-- One physical array (R37 to R73). -/
structure Arr where
  /-- Rows as written: 1,056 bits in logical column order (R38). -/
  rows : FMap Nat := []
  /-- The cells of the physical columns that carry no logical column, by row: bit p for physical column p, 1,056 to 1,071 the spares (R37, R68). -/
  offCells : FMap Nat := []
  /-- The scale store: window x 1024 + output to its E8M0 code (R40). -/
  scales : FMap Nat := []
  /-- State code of Table 2-6. -/
  state : Nat := 5
  /-- The logical array served (engine x 8 + array), 0x3F none. -/
  logical : Nat := 63
  cols : FMap Col := []
  /-- The spare-column map: column to spare, plus one (R68). -/
  spareMap : FMap Nat := []
  /-- Spares out of use. -/
  spareBad : Nat := 0
  /-- A round or sweep has completed: margins are measured. -/
  swept : Bool := false
  /-- Times that the trims of all columns were recomputed after margin slot 8 (R61): the model's stand-in for their values. -/
  trims : Nat := 0
  /-- The slot of the calibration round that comes next, and the margin slots performed in this round (R61, R66). -/
  slot : Nat := 0
  measured : List Nat := []
  /-- A column fill in progress: column, spare, rows filled (R69). -/
  fill : Option (Nat × Nat × Nat) := none
  /-- Rows that a rewrite wrote during the fill: they count as filled (R69 item 5). -/
  fillSkip : List Nat := []
  /-- Rows found different, to be rewritten in the next scrub slot (R63). -/
  dirty : List Nat := []
  /-- For a spare being filled: the physical array it replaces (R72). -/
  replaces : Option Nat := none
  /-- Windows left unwritten by a reversion (R334). -/
  badWin : List Nat := []
  reconv : Nat := 0
  rewrite : Nat := 0
  hard : Nat := 0
  wfault : Nat := 0
  scrubFix : Nat := 0
deriving DecidableEq, Repr

/-! ## Layouts and partitions -/

/-- An assignment entry (Table 7-8). -/
structure Asg where
  layer : Nat := 0
  shard : Nat := 0
  s : Nat := 1
  h : Nat := 1
  format : Nat := 3
  base : Nat := 0
  slots : Nat := 0
  kmax : Nat := 0
  mapBase : Nat := 0
  stride : Nat := 0
deriving DecidableEq, Repr

/-- A core record (Table 7-7), its assignments and its telemetry map record (R548). -/
structure CoreRec where
  scoreOff : Nat := 0
  scoreLen : Nat := 0
  shelfOff : Nat := 0
  shelfLen : Nat := 0
  shelfBase : Nat := 0
  masterBase : Nat := 0
  masterLen : Nat := 0
  asgs : List Asg := []
  ventry : List Nat := []
  expBase : Nat := 0
  expRecords : Nat := 0
  sampBase : Nat := 0xFFFFFFFF
  stage : Nat := 0
  digBase : Nat := 0
  digRecords : Nat := 0
  trcBase : Nat := 0
  trcRecords : Nat := 0
  ibase : List Nat := []
  /-- The weight formats of the arrays in the staged and the live image (AFMT of Table 11-2). -/
  afmt : Nat := 0
  afmtStaged : Nat := 0
deriving DecidableEq, Repr

/-- A variable-latency item (R209, R279): the core that declares it, its cause, the cycles in which its level is raised and lowered. -/
structure Item where
  core : CoreId
  cause : Nat
  up : Nat
  down : Option Nat := none
deriving DecidableEq, Repr

/-- A weight operation in progress (R320 to R328): command code, its step, the slot it reads, the waves of the rewrite. -/
structure WeightOp where
  op : Nat
  step : Nat
  waves : List (List Nat) := []
  first : Bool := false
  reverting : Option Nat := none
deriving DecidableEq, Repr

/-- A staging in progress (R321): the image bytes that have arrived; while `SHARE` is 0, how many of them the reads issued before bring. -/
structure Staging where
  img : Bytes := []
  limit : Option Nat := none
deriving DecidableEq, Repr

/-- A load in progress (R215): the descriptor's fields. -/
structure LoadSt where
  addr : Nat
  len : Nat
  part : Nat
  row : Nat
  col : Nat
  rows : Nat := 0
  cols : Nat := 0
  phase : Nat := 1
deriving DecidableEq, Repr

/-- A recovery in progress (R489, R490): failed isle and site, step of Table 18-4, the core moved. -/
structure Recovery where
  isle : Nat
  site : Nat
  /-- Step of Table 18-4; 0 while the recovery waits for a repair command (R488). -/
  step : Nat
  moved : List (CoreId × Nat × Nat) := []
  lost : Bool := false
deriving DecidableEq, Repr

/-- A group in flight (R338): the beat and lane in which it entered, its request, first position, size, kind (1 prefill, 2 decode, 3
verification), and whether it ends the prompt. -/
structure Group where
  beat : Nat
  lane : Nat
  entry : Nat
  pos0 : Nat
  n : Nat
  kind : Nat
  lastp : Bool
deriving DecidableEq, Repr

/-- One partition (R191, R332). -/
structure Part where
  loaded : Bool := false
  imageAddr : Nat := 0
  imageLen : Nat := 0
  originRow : Nat := 0
  originCol : Nat := 0
  rows : Nat := 0
  cols : Nat := 0
  rootIsle : Nat := 0
  rootCore : Nat := 0
  lead : Nat := 0
  dmax : Nat := 0
  variants : Nat := 0
  lanes : Nat := 0
  stages : Nat := 0
  mode : Nat := 0
  classlat : List Nat := []
  beatLen : List Nat := []
  digest : Bytes := []
  dir : FMap CoreRec := []
  noMap : Bool := true
  /-- The partition has pulsed START and runs beats (R283, R327). -/
  started : Bool := false
  /-- Held by a swap, an unload or a recovery: no further beat starts (R323). -/
  held : Bool := false
  /-- Halted by a failure, a restart or a reset (R432, R489). -/
  halted : Bool := false
  /-- Isles whose suspension stops the partition (R455). -/
  suspended : List Nat := []
  /-- The RUN level at the root, and the waves it has driven, newest first: cycle and level (R279). -/
  run : Bool := true
  waves : List (Nat × Bool) := []
  /-- Score cycle of the current beat, score cycles since the layout's start, beats, current variant (R198, R201). -/
  score : Nat := 0
  total : Nat := 0
  beat : Nat := 0
  variant : Nat := 0
  startAt : Option Nat := none
  /-- A beat has begun since the layout's start or the last partition reset (R337). -/
  begun : Bool := false
  items : List Item := []
  /-- The sheets handed to the root for the next beat, by stage: L entries of 64 bytes; none: not yet handed over (R347). -/
  sheet : Option (List (List Bytes)) := none
  /-- The history of the lane entries: one list of L entries for each of the last S beats, newest first (R339). -/
  history : List (List Bytes) := []
  /-- Lane state words received, oldest first: lane, word (R347). -/
  words : List (Nat × Bytes) := []
  /-- The groups in flight, oldest first; one that is sampled stays until its word is handled. -/
  groups : List Group := []
  /-- The replica map (R473): the replica of each lane, and of each core by directory index, plus one; unlisted: none. -/
  laneRep : FMap Nat := []
  coreRep : FMap Nat := []
  /-- Releases to be listed, oldest first, and those listed: entry, beat (R347 item 5). -/
  relQ : List Nat := []
  relOut : List (Nat × Nat) := []
  /-- A follower's lane entries as forwarded, by beat, and when the last arrived (R409). -/
  fwd : FMap (List Bytes) := []
  /-- Lines of the sheet handed over that have still to reach a core; the root has found that the sheet will be late (R203). -/
  sheetLeft : Nat := 0
  sheetLate : Bool := false
  fwdAt : Nat := 0
  stallBeat : Nat := 0
  /-- The root cycle from which pause frames are counted, whether a pulse to come leaves it (a swap's), the applied duty and the paused slots
  of this frame (R448). -/
  frameStart : Nat := 0
  frameKeep : Bool := false
  appliedDuty : Nat := 0
  pausedSlots : List Nat := []
  /-- Weight versions (R313 to R336). -/
  liveSlot : Nat := 0
  liveValid : Bool := false
  other : Nat := 0
  tag : Nat := 0
  otag : Nat := 0
  wswStatus : Nat := 0
  wswDetail : Nat := 0
  wop : Option WeightOp := none
  staging : Option Staging := none
  barrier : Bool := false
  unloading : Bool := false
  /-- What a partition reconfiguration asked of the loader and not yet begun: 0 nothing, 1 an unload (R333), 2 a partition reset (R432). -/
  asked : Nat := 0
  recovery : Option Recovery := none
  /-- Debug mode (R533): in force, and asked for or to be left at the next boundary. -/
  debug : Bool := false
  debugAsk : Option Bool := none
  digestsOn : Bool := false
  /-- Values of commits waiting for the next beat boundary, in commit order: register, value (R511, R512). -/
  commits : List (Nat × Word) := []
deriving DecidableEq, Repr

/-! ## Requests -/

/-- A request table entry (Table 12-3), with the items SCH keeps beside it: stop list, drafts, positions in flight, release state. -/
structure Req where
  state : Nat := 0
  part : Nat := 0
  hard : Bool := false
  spec : Bool := false
  exp : Bool := false
  late : Bool := false
  draft : Bool := false
  dlv : Bool := false
  cls : Nat := 0
  lane : Nat := 0
  phase : Nat := 0
  link : Nat := 0
  promptLen : Nat := 0
  pos : Nat := 0
  maxNew : Nat := 0
  generated : Nat := 0
  ttftGoal : Nat := 0
  tbtGoal : Nat := 0
  deadline : Nat := 0
  tArrive : Nat := 0
  tLast : Nat := 0
  ttft : Nat := 0xFFFFFFFF
  tbtMax : Nat := 0
  user : Nat := 0
  promptAddr : Nat := 0
  parkAddr : Nat := 0
  tExpire : Nat := 0
  lastTok : Nat := 0
  dctr : Nat := 0
  ndraft : Nat := 0
  status : Nat := 0
  cring : Nat := 0
  func : Nat := 0
  tbtLast : Nat := 0
  /-- The prompt's tokens as fetched at admission (R345). -/
  prompt : List Nat := []
  stops : List Nat := []
  /-- The sampling record written at admission (R352). -/
  samp : Bytes := []
  /-- Slots held: (phase, lane) (R338). -/
  held : List (Nat × Nat) := []
  /-- Placed and not yet released (R350). -/
  placed : Bool := false
  /-- Drafts stored for the target, rounds finished, drafts produced by a draft request in its round (R358). -/
  drafts : List Nat := []
  rounds : Nat := 0
  produced : Nat := 0
  /-- A park is under way; its TTL in milliseconds (R362). -/
  parking : Bool := false
  ttl : Nat := 0
  /-- The lines of its park area are being read from, or written to, the cabinets (R296 item 5, R362, R365). -/
  copying : Bool := false
  /-- A resume is waiting for a slot; the slot found is in `held` (R365). -/
  resuming : Bool := false
  /-- Ends without records, after an FLR (Table 13-5). -/
  silent : Bool := false
  /-- The device that holds the other request of a proxied pair, and that request's partition (R410). -/
  proxy : Option Nat := none
  rpart : Nat := 0
  /-- The landing slot that an imported entry occupies until it is Free (R412). -/
  land : Option Nat := none
deriving DecidableEq, Repr

/-! ## Rings -/

/-- A host ring (R380 to R385, R542): whether the index pair has been read since the ring was enabled, the host's index as last read,
whether the consumer index is to be written, the records held (entry, whether the entry becomes Free with it, record), the records
written since the last message, and the device time at which the oldest of them was written. -/
structure Ring where
  ready : Bool := false
  host : Nat := 0
  dirty : Bool := false
  held : List (Option Nat × Bool × Bytes) := []
  unsig : Nat := 0
  oldest : Nat := 0
deriving DecidableEq, Repr

/-! ## The causeway fabric -/

/-- A causeway port (R396 to R399): next link sequence number, last one received in order, packets sent and not acknowledged, packets
waiting with the times since when, replays of the oldest one, free units at the far end by `FVC`, units to return, units sent by `FVC` since the
queue was last empty (R398), the neighbour's last hello and its time. -/
structure Port where
  lseq : Nat := 0
  rx : Option Nat := none
  replay : List Packet := []
  tries : Nat := 0
  txq : List (Packet × Nat) := []
  units : List Nat := [512, 128, 512, 384]
  owed : List Nat := [0, 0, 0, 0]
  spent : List Nat := [0, 0, 0, 0]
  nbr : Option HelloMsg := none
  nbrAt : Nat := 0
deriving DecidableEq, Repr

/-- A packet of a stream that is not acknowledged end to end: when it was sent last, retransmissions. -/
structure Sent where
  pkt : Packet
  at_ : Nat
  tries : Nat := 0
deriving DecidableEq, Repr

/-- A stream to a destination on one `FVC` (R402): next `ESEQ`, packets not acknowledged, packets waiting for room among 64. -/
structure Stream where
  next : Nat := 0
  sent : List Sent := []
  wait : List Packet := []
deriving DecidableEq, Repr

/-- A stream from a source on one `FVC`: the `ESEQ` delivered next, packets held for order. -/
structure RxStream where
  next : Nat := 0
  held : List Packet := []
deriving DecidableEq, Repr

/-- A gate (R406): F, whether a firing is in flight, the data packets of it that are not acknowledged, and whether its addition to `DONE` is
under way; the lines of the firing, how many of them have been read, those read of the next packet, and where line 0 goes. Its status is
`CWY_GATE_STAT.STATUS`. -/
structure Gate where
  fires : Nat := 0
  busy : Bool := false
  left : Nat := 0
  adding : Bool := false
  len : Nat := 0
  got : Nat := 0
  data : List Bytes := []
  dst : Nat := 0
deriving DecidableEq, Repr

/-- A number as the assigner keeps it (R400): holder, and since when the holder is gone. -/
structure NumRec where
  num : Nat
  ident : Nat
  gone : Option Nat := none
deriving DecidableEq, Repr

/-- The East harbour (14_causeway_fabric.md). -/
structure Fabric where
  /-- Own identity; the lowest identity known, its distance, the parent port; hellos in which the own identity was LOWEST (R399). -/
  ident : Nat := 0
  lowest : Nat := 0
  dist : Nat := 0
  parent : Option Nat := none
  selfAdv : Nat := 0
  ports : FMap Port := []
  /-- The neighbours' vectors: port x 4096 + device number to metric + 1 (R403). -/
  vecs : FMap Nat := []
  streams : FMap Stream := []
  rxs : FMap RxStream := []
  gates : FMap Gate := []
  /-- The assigner's numbers; where a grant for an identity returns (R400). -/
  nums : List NumRec := []
  back : FMap Nat := []
  /-- Packets delivered to this device and not yet acted upon. -/
  inbox : List Packet := []
  /-- A migration under way: entry, destination; the time of the last logged lane failure and transit drop (R411, R414). -/
  mig : Option (Nat × Nat) := none
  laneWarn : Option Nat := none
  dropWarn : Option Nat := none
deriving DecidableEq, Repr

/-! ## Messages in flight -/

/-- One line of a remote flow: its source and its destination wafer address. -/
structure FlowLine where
  src : Nat
  dst : Nat
deriving DecidableEq, Repr

/-- A remote flow over VC2 (R275): the core that started it, the lane whose poison flag it carries, its lines, how many of them have been
delivered; of a scatter's pull the tray lines that it has brought (wafer address, line). -/
structure Flow where
  id : Nat
  core : CoreId
  lane : Nat
  lines : List FlowLine
  done : Nat := 0
  pull : Bool := false
  held : List (Nat × Bytes) := []
deriving DecidableEq, Repr

/-- What a line on the network carries (Table 9-1, `KIND`): scheduled data, a read request of a flow, line `k` of a flow with its data and poison flag,
or a VC3 message. -/
inductive NetMsg where
  | vc0 (l : MeshLine)
  | request (flow : Nat)
  | flowLine (flow k : Nat) (data : Bytes) (poison : Bool)
  | vc3 (m : Vc3Msg)
deriving DecidableEq, Repr

/-- One hop of a route (R265): the link direction (0 north, 1 east, 2 south, 3 west), whether it crosses an isle edge, the node it leads to. -/
structure Hop where
  dir : Nat
  strait : Bool
  dest : Nat
deriving DecidableEq, Repr

/-- A line on the network, two flits (R263): its message, the node at which it is and the router input by which it came, the hops left, the
cycle from which it is available there; of a scheduled line the score cycle in which it leaves that router or is delivered (R266, R285);
whether its first flit has gone; the link that it took last, the cycle and the router input it came from; the strait channel it is crossing; and whether a strait-retry
item has been declared for it (R269). -/
structure NetLine where
  id : Nat
  vc : Nat
  msg : NetMsg
  here : Nat
  inp : Nat := 0
  route : List Hop
  at_ : Nat
  sch : Nat := 0
  half : Bool := false
  left : Option (Nat × Nat × Nat) := none
  cross : Option Nat := none
  late : Bool := false
deriving DecidableEq, Repr

/-- The arbiter of a link direction (R273): the group it counts in, plus one, the cycles that VC3 has used of it, the flow served last. -/
structure LinkSt where
  group : Nat := 0
  used : Nat := 0
  flow : Nat := 0
deriving DecidableEq, Repr

/-- A flit in the replay buffer of a strait channel (R268 to R270): the line it belongs to, first or second flit, its launch, failed checks on
the physical channel it occupies, failed checks in all, whether a NAK is on its way. -/
structure StraitFlit where
  line : Nat
  second : Bool
  launch : Nat
  fails : Nat := 0
  total : Nat := 0
  nak : Bool := false
deriving DecidableEq, Repr

/-- One logical channel of a strait edge (R267 to R270): the flits not yet acknowledged, oldest first; whether it has failed with no spare left. -/
structure StraitCh where
  buf : List StraitFlit := []
  failed : Bool := false
deriving DecidableEq, Repr

/-! ## Logs -/

/-- A stage of the event log (R540, R543, R545): its records, oldest first, and whether a gap record is open to extension. -/
structure LogQ where
  q : List EvRec := []
  gapOpen : Bool := false
deriving DecidableEq, Repr

/-- An alarm record and the paths that still have to deliver it (R544). -/
structure AlarmRec where
  rec_ : EvRec
  host : Bool := true
  side : Bool := true
deriving DecidableEq, Repr

/-- What the device sends to its surroundings, in the order sent. -/
inductive Out where
  | hostWrite (fn addr : Nat) (data : Bytes)
  | hostRead (fn addr len : Nat)
  | msix (fn vec : Nat)
  | answer (rq : Requester) (data : Bytes)
  | mctp (kind : Nat) (data : Bytes)
  | spdm (tr : Transport) (code : Nat) (data : Bytes)
  | doe (data : Bytes)
  | packet (port : Nat) (p : Packet)
  | modeReport (part mode : Nat)
deriving DecidableEq, Repr



/-- A firmware update authorised or running (R506, R507): length, first 8 bytes of the digest, `FLOOR`, whether it comes through PLDM, since
when its window is open and whether it still is, the image bytes received through PLDM. -/
structure Fwu where
  len : Nat
  digest8 : Bytes
  floor : Bool
  pldm : Bool
  at_ : Nat
  window : Bool
  data : Bytes := []
deriving DecidableEq, Repr

/-- A transaction slot (R508 to R513): the function that began the open transaction, and when; its shadow, in the order of first writes,
whether it overflowed; the last outcome and the identifier (Tables 19-9, 19-10). -/
structure Tx where
  owner : Option Requester := none
  at_ : Nat := 0
  shadow : List (Nat × Word) := []
  overflow : Bool := false
  status : Nat := 0
  id : Word := 0
deriving DecidableEq, Repr

/-- Power (16_power_delivery.md): the limit the power controller last took over (R452); the hardware pauses in force: isle i as i, plane group
g as 100 + g, the 30 kW sample as 200, the 10 ms average as 201 (R447, R451); the input samples of the last 10 ms, newest first; since when
an isle waits to switch on, plus one, and the isles whose wait exceeded 5 ms (R453); the isles on their way out of parking (R456); the isles
whose VS switch is open (R444, R445); comparisons in a row that a phase exceeded, by (isle x 8 + rail) x 32 + phase (R442). -/
structure Pwr where
  limit : Nat := 25000
  hw : List Nat := []
  samples : List Nat := []
  wait : FMap Nat := []
  longWait : List Nat := []
  unpark : List Nat := []
  vsOff : List Nat := []
  crack : FMap Nat := []
  /-- Coolant (R476): since when it is out of range, and when the last warning went. -/
  coolBad : Option Nat := none
  coolWarn : Option Nat := none
  /-- A reset held in Shutdown (R471): its source code of `SYS_RST_CAUSE`. -/
  heldReset : Option Nat := none
deriving DecidableEq, Repr

/-- The sensors of an isle (17_thermal.md): the samples of the last 10 s, newest first, with their times (R465); the sensors that read 118.0
degrees or more in the last sample (R467); since when h has been 16 and since when the isle has been below 90.0 degrees (R472); spares on their
way into service, by spare, with the broken sensor plus one; broken sensors that wait for the isle controller (R466); the sensor map of the
device region, by sensor, with the spare plus one. -/
structure Heat where
  hist : List (Nat × List Int) := []
  hot : List Nat := []
  fullAt : Option Nat := none
  coolAt : Option Nat := none
  mapping : FMap Nat := []
  unmapped : List Nat := []
  spareOf : FMap Nat := []
deriving DecidableEq, Repr

/-- THE STATE of the device. -/
structure State where
  /-- Core cycles since the cold start (R198, R369), and at the start of the last cold start or warm restart (Table 15-14). -/
  cyc : Nat
  startCyc : Nat
  /-- Whether the current cycle's waves, beats and pauses have been put before its bundles (log entry 3). -/
  phase : Bool
  /-- Registers that hold a value of their own, by the word's number (see Machine/RegMap.lean). -/
  regs : FMap Word
  /-- By word: the W1C bits that events have set in this core cycle, which a write of the same cycle leaves set (Table 0-2). -/
  fresh : FMap Nat
  /-- By requester x 2^40 + register: selection registers (R75); holding copies of high halves and held low halves, plus one (R6). -/
  sel : FMap Word
  holdHi : FMap Nat
  heldLo : FMap Nat
  /-- The byte-addressed spaces of the cores, by wafer address (R9). -/
  mem : List Host.Cell
  cores : FMap Core
  arrs : FMap Arr
  parts : FMap Part
  loads : List LoadSt
  reqs : FMap Req
  /-- The logical grid's places: logical isle to physical isle, core to core site of its isle, site and logical array to physical array;
  each plus one, an unlisted key standing for the place without repairs (R24, R40, R481). -/
  isleMap : FMap Nat
  coreMap : FMap Nat
  arrMap : FMap Nat
  /-- Failed core sites with the `REP_SITE.CAUSE` code, candidate sites, failed physical isles, strait edges recorded as failed
(isle, edge) (R481, R484, R485, R487), and the detections waiting for the repair log, with their device time (R496). -/
  siteFail : FMap Nat
  siteCand : List Nat
  isleFail : List Nat
  edgeFail : List (Nat × Nat)
  repairQ : List (Defect × Nat)
  /-- Failed isles whose partition's end under R484 is due; a `RESUPPLY` outside a recovery (core) (R494); the repair log region: the records
appended, the room left in records (R496). -/
  isleDue : List Nat
  resup : Option CoreId
  repRecs : List Bytes
  repRoom : Nat
  /-- Power and heat. -/
  pw : Pwr
  heat : FMap Heat
  /-- Host rings by function x 64 + kind x 16 + ring; the functions in D3hot; the ring served first by the last poll (R382); the
submission records fetched and not yet handled (function, ring, record). -/
  rings : FMap Ring
  d3 : List Nat
  pollFrom : Nat
  /-- The PCIe link is trained (R416). -/
  linkUp : Bool
  subq : List (Nat × Nat × Bytes)
  fabric : Fabric
  /-- Sync counters (R366). -/
  sync : FMap Nat
  /-- The network (R262 to R277): the lines on it, the remote flows, the number the next line or flow takes, the arbiters of the links (node x 4 +
direction), the strait channels by receiving isle x 64 + edge x 16 + channel (R267), and the spare that a channel has moved to, plus one (R270). -/
  net : List NetLine
  flows : List Flow
  netId : Nat
  links : FMap LinkSt
  strait : FMap StraitCh
  chMap : FMap Nat
  /-- The event log (R540 to R546). -/
  stag : FMap LogQ
  central : LogQ
  sideQ : LogQ
  alarms : List AlarmRec
  seq : Nat
  /-- SEC: command key, the PF's record in its check stage, times of tag refusals in the last minute, since when the mailbox is locked, the
second in which a warning event bit was last recorded plus one (R528 to R536); measurements of Root, debug entries (R518, R525). -/
  cmdKey : Bytes
  secRec : Option Bytes
  tagFails : List Nat
  lockAt : Nat
  warnAt : FMap Nat
  meas : FMap Bytes
  debugCount : Nat
  /-- The firmware update, restart times of each processor within the last minute (0 SEC, 1 PWC, 2 SCH, 3 + i the isle controllers) (R502),
transaction slots (0 PF, 1 BMC, 2 SEC, 3 SCH). -/
  fwu : Option Fwu
  restarts : FMap (List Nat)
  tx : FMap Tx
  /-- Attestation (R520, R524, R526): the certificate chain of slot 0; the steps of version, capabilities and algorithms that a transport has
taken (0 DOE, 1 MCTP); secured sessions (transport, session, established); IDE streams (1 keys programmed, 2 secure, 3 insecure) and their
keys; the MCTP endpoint ID (R552). -/
  chain : Bytes
  spdm : FMap Nat
  sess : List (Transport × Nat × Bool)
  ide : FMap Nat
  ideKeys : FMap Bytes
  eid : Nat
  /-- When an isle controller's restart began, by isle, plus one, until `IC_LATE` has been raised or it has resumed (R501). -/
  icAt : FMap Nat
  /-- What was sent to the surroundings. -/
  out : List Out
  /-- The model's own: the number of free values taken so far, and of starts, which leave accumulators undefined (R121). -/
  free : Nat
  accEpoch : Nat

  /-- Commands waiting, first in, first out. -/
  pending : List Instr
deriving DecidableEq, Repr

/-- The machine right after the 48 V input has come into range (R415): Aux of a power-on start, every register at its reset value, every memory
as nothing has written it, the grid without repairs, no command waiting. -/
def State.reset : State :=
  { cyc := 0, startCyc := 0, phase := false, regs := [], fresh := [], sel := [], holdHi := [], heldLo := [], mem := [], cores := [], arrs := [], parts := [], loads := []
    reqs := [], isleMap := [], coreMap := [], arrMap := [], siteFail := [], siteCand := [], isleFail := [], edgeFail := [], repairQ := []
    isleDue := [], resup := none, repRecs := [], repRoom := 0, pw := {}, heat := [], rings := [], d3 := [], pollFrom := 0, linkUp := false
    subq := [], fabric := {}, sync := [], net := [], flows := [], netId := 0, links := [], strait := [], chMap := [], stag := [], central := {}, sideQ := {}
    alarms := [], seq := 0, cmdKey := [], secRec := none, tagFails := [], lockAt := 0, warnAt := [], meas := [], debugCount := 0, fwu := none
    restarts := [], tx := [], chain := [], spdm := [], sess := [], ide := [], ideKeys := [], eid := 0, icAt := [], out := [], free := 0
    accEpoch := 0
    pending := [] }

end Sys2Proof.Machine
end

