-- ==== Sys2Proof/Machine/Ops.lean ====
section
/-!
DEFINITION. The named operations over the state that every meaning uses: sparse maps, the register file, the memory, the cores,
the partitions, the poison flag, free values and the outbox.
-/
namespace Sys2Proof.Machine

/-- The answer of a meaning. -/
abbrev Res := Host.Outcome State Fault Refusal

/-! ## Sparse maps -/

/-- The value a sparse map holds for a key, `d` where it lists none. -/
def fget {α : Type} (d : α) : FMap α → Nat → α
  | [], _ => d
  | (k, v) :: m, i => if k = i then v else fget d m i

/-- A sparse map without a key. -/
def ferase {α : Type} : FMap α → Nat → FMap α
  | [], _ => []
  | (k, v) :: m, i => if k = i then ferase m i else (k, v) :: ferase m i

/-- A sparse map with a key set, keys kept rising. -/
def fins {α : Type} : FMap α → Nat → α → FMap α
  | [], i, v => [(i, v)]
  | (k, u) :: m, i, v => if i < k then (i, v) :: (k, u) :: m else if i = k then (i, v) :: m else (k, u) :: fins m i v

/-- A sparse map with a key set; setting the default removes the entry. -/
def fset {α : Type} [DecidableEq α] (d : α) (m : FMap α) (i : Nat) (v : α) : FMap α :=
  if v = d then ferase m i else fins m i v

/-! ## Memory -/

/-- What a byte reads as that nothing has written. -/
def memDefault : Byte := 0

/-- A byte of memory. -/
def mget (m : List Host.Cell) (a : Nat) : Byte := fget memDefault m a

/-- The cells of a run of bytes, the default bytes left out. -/
def cellsOf : Nat → Bytes → List Host.Cell
  | _, [] => []
  | a, b :: bs => if b = memDefault then cellsOf (a + 1) bs else (a, b) :: cellsOf (a + 1) bs

/-- Memory with a run of bytes written at an address. -/
def mput (m : List Host.Cell) (a : Nat) (bs : Bytes) : List Host.Cell :=
  m.filter (fun c => decide (c.1 < a)) ++ cellsOf a bs ++ m.filter (fun c => decide (a + bs.length ≤ c.1))

/-- The canonical form of memory: addresses strictly rising, no listed byte equal to the default. -/
def Memory.wf (m : List Host.Cell) : Bool :=
  match m with
  | [] => true
  | c :: cs => decide (c.2 ≠ memDefault) && cs.all (fun d => decide (c.1 < d.1)) && Memory.wf cs

/-- `n` bytes of memory from an address. -/
def mread (m : List Host.Cell) (a n : Nat) : Bytes :=
  let near := m.filter (fun c => decide (a ≤ c.1) && decide (c.1 < a + n))
  (List.range n).map (fun i => mget near (a + i))

/-- The bytes at a wafer address. -/
def State.rd (s : State) (a n : Nat) : Bytes := mread s.mem a n

/-- The state with bytes written at a wafer address. -/
def State.wr (s : State) (a : Nat) (bs : Bytes) : State := { s with mem := mput s.mem a bs }

/-- A little-endian number in memory. -/
def State.rdN (s : State) (a n : Nat) : Nat := leNat (s.rd a n)

/-! ## Addresses (R9) -/

/-- Space codes (Table 0-3). -/
def spShelf : Nat := 0
def spCabinet : Nat := 1
def spAcc : Nat := 2
def spScore : Nat := 3
def spBuf : Nat := 4

/-- The wafer address of an offset in a space of a core. -/
def wa (space : Nat) (core : CoreId) (off : Nat) : Nat := space * 2 ^ 44 + core * 2 ^ 29 + off

/-- Fields of a wafer address. -/
def waSpace (a : Nat) : Nat := a / 2 ^ 44 % 16
def waCore (a : Nat) : CoreId := a / 2 ^ 29 % 2 ^ 15
def waOff (a : Nat) : Nat := a % 2 ^ 29

/-- Logical isle, core row and core column of a core. -/
def cIsle (c : CoreId) : Nat := c / 256
def cRow (c : CoreId) : Nat := c / 16 % 16
def cCol (c : CoreId) : Nat := c % 16

/-- A core from its isle, row and column. -/
def mkCore (isle row col : Nat) : CoreId := isle * 256 + row * 16 + col

/-- The size of a space of a core (R115, R170, R181, R194, R290); 0 for an unassigned space. -/
def spaceSize (space : Nat) : Nat :=
  if space = 0 then 0x400000
  else if space = 1 then 0x5800000
  else if space = 2 then 393216
  else if space = 3 then 0x100000
  else if space = 4 then 180224
  else 0

/-! ## The register file -/

/-- The word number of a register at a byte offset of BAR0 (R373). -/
def rSys (w : Nat) : Nat := w
def rHost (fn w : Nat) : Nat := if fn = 0 then 0x4000 + w else 2 ^ 27 + fn % 16 * 2 ^ 16 + w
def rCfg (w : Nat) : Nat := 0x8000 + w
def rSch (w : Nat) : Nat := 0x10000 + w
def rPwr (w : Nat) : Nat := 0x70000 + w
def rThm (w : Nat) : Nat := 0x74000 + w
def rSec (w : Nat) : Nat := 0x78000 + w
def rTel (w : Nat) : Nat := 0x7C000 + w
def rCwy (w : Nat) : Nat := 0x80000 + w
def rDbg (w : Nat) : Nat := 0x400000 + w

/-- A register of physical isle `i`'s window (R373). -/
def rIsle (i w : Nat) : Nat := 0x100000 + 0x4000 * i + w

/-- A register of one core site, seen through `CIM_SEL.SITE` (R105, R126, R168, R189). -/
def rSite (site w : Nat) : Nat := 2 ^ 32 + site * 2 ^ 13 + w

/-- The reset value of a register: the Reset column (00_scope.md, before R8), 0 where it gives 0x0. -/
def regReset (r : Nat) : Word :=
  if r < 0x4000 then
    (if r = rSys 0 then 0x0A100000#32 else if r = rSys 1 then 1#32 else if r = rSys 0x40 then 3#32 else 0#32)
  else if r < 0x8000 then
    (let w := r - 0x4000
     if w = 4 then 2#32 else if 0x200 ≤ w ∧ w < 0x280 ∧ w % 8 = 5 then 0x00001001#32 else 0#32)
  else if 0x10000 ≤ r ∧ r < 0x20000 then
    (let w := r - 0x10000
     if 0x140 ≤ w ∧ w < 0x148 then 1#32
     else if 0x1000 ≤ w ∧ w < 0x1040 ∧ w % 8 = 2 then 8#32 else 0#32)
  else if 0x70000 ≤ r ∧ r < 0x74000 then
    (let w := r - 0x70000
     if w = 0 then 25000#32 else if w = 1 then 0x000961A8#32
     else if 0x100 ≤ w ∧ w < 0x150 then 0x01680168#32 else 0#32)
  else if 0x74000 ≤ r ∧ r < 0x78000 then (if r = rThm 8 then 0x00033801#32 else 0#32)
  else if 0x7C000 ≤ r ∧ r < 0x80000 then
    (if r = rTel 4 then 0x10000000#32 else if r = rTel 6 then 2#32 else 0#32)
  else if 0x100000 ≤ r ∧ r < 0x240000 then
    (let w := (r - 0x100000) % 0x4000
     if w = 0x802 then 7#32 else if w = 0x801 then 0x00080C10#32
     else if 0x8B0 ≤ w ∧ w < 0x8B4 then 0x02000000#32
     else if 0x8F0 ≤ w ∧ w < 0x914 then
       (let n := w - 0x8F0
        if n < 24 then 0x003F0000#32 else if n < 28 then 0x003F1000#32 else if n < 32 then 0x003F2000#32
        else if n < 34 then 0x003F8000#32 else if n = 34 then 0x003F9000#32 else 0x003FA000#32)
     else 0#32)
  else if 2 ^ 27 ≤ r ∧ r < 2 ^ 28 then
    (let w := r % 2 ^ 16
     if w = 4 then 2#32 else if 0x200 ≤ w ∧ w < 0x280 ∧ w % 8 = 5 then 0x00001001#32 else 0#32)
  else if 2 ^ 32 ≤ r ∧ (r - 2 ^ 32) % 2 ^ 13 = 0x8C4 then 256#32
  else 0#32

/-- The value of a register. -/
def State.reg (s : State) (r : Nat) : Word := fget (regReset r) s.regs r

/-- The value of a register as a number. -/
def State.regN (s : State) (r : Nat) : Nat := (s.reg r).toNat

/-- The state with a register set. -/
def State.setReg (s : State) (r : Nat) (v : Word) : State := { s with regs := fset (regReset r) s.regs r v }

/-- The state with a register set from a number. -/
def State.setRegN (s : State) (r v : Nat) : State := s.setReg r (BitVec.ofNat 32 v)

/-- A 64-bit register: the low half at the lower number (R6). -/
def State.reg64 (s : State) (r : Nat) : Nat := s.regN r + 2 ^ 32 * s.regN (r + 1)

/-- The state with a 64-bit register set. -/
def State.setReg64 (s : State) (r v : Nat) : State := (s.setRegN r v).setRegN (r + 1) (v / 2 ^ 32)

/-- A number with bits `[hi:lo]` replaced. -/
def setBits (w hi lo v : Nat) : Nat :=
  let n := hi + 1 - lo
  w - (bits w hi lo) * 2 ^ lo + (v % 2 ^ n) * 2 ^ lo

/-- A field of a register. -/
def State.fld (s : State) (r hi lo : Nat) : Nat := bits (s.regN r) hi lo

/-- The state with a field of a register set. -/
def State.setFld (s : State) (r hi lo v : Nat) : State := s.setRegN r (setBits (s.regN r) hi lo v)

/-- The state with bits of a register set to 1 by an event of this core cycle (R8). -/
def State.orReg (s : State) (r v : Nat) : State :=
  { s.setReg r (s.reg r ||| BitVec.ofNat 32 v) with fresh := fset 0 s.fresh r (fget 0 s.fresh r ||| v) }

/-- A field that counts and holds at its maximum. -/
def State.satFld (s : State) (r hi lo n : Nat) : State :=
  s.setFld r hi lo (Nat.min (s.fld r hi lo + n) (2 ^ (hi + 1 - lo) - 1))

/-- A counter register of 32 bits that holds at its maximum. -/
def State.sat32 (s : State) (r n : Nat) : State := s.satFld r 31 0 n

/-- A 64-bit counter, modulo 2^64. -/
def State.add64 (s : State) (r n : Nat) : State := s.setReg64 r ((s.reg64 r + n) % 2 ^ 64)

/-- A 64-bit counter that holds at its maximum. -/
def State.sat64 (s : State) (r n : Nat) : State := s.setReg64 r (Nat.min (s.reg64 r + n) (2 ^ 64 - 1))

/-! ## Units of the state -/

def State.core (s : State) (c : CoreId) : Core := fget {} s.cores c
def State.setCore (s : State) (c : CoreId) (k : Core) : State := { s with cores := fset {} s.cores c k }
def State.updCore (s : State) (c : CoreId) (f : Core → Core) : State := s.setCore c (f (s.core c))
/-- An array at reset (Table 2-6). -/
def arrReset (_ : Nat) : Arr := {}
def State.arr (s : State) (k : Nat) : Arr := fget (arrReset k) s.arrs k
def State.setArr (s : State) (k : Nat) (a : Arr) : State := { s with arrs := fset (arrReset k) s.arrs k a }
def State.updArr (s : State) (k : Nat) (f : Arr → Arr) : State := s.setArr k (f (s.arr k))
def State.part (s : State) (p : Nat) : Part := fget {} s.parts p
def State.setPart (s : State) (p : Nat) (q : Part) : State := { s with parts := fset {} s.parts p q }
def State.updPart (s : State) (p : Nat) (f : Part → Part) : State := s.setPart p (f (s.part p))
def State.req (s : State) (e : Nat) : Req := fget {} s.reqs e
def State.setReq (s : State) (e : Nat) (r : Req) : State := { s with reqs := fset {} s.reqs e r }
def State.updReq (s : State) (e : Nat) (f : Req → Req) : State := s.setReq e (f (s.req e))

/-- Something sent to the surroundings. -/
def State.send (s : State) (o : Out) : State := { s with out := s.out ++ [o] }

/-- The next free value of `w` bits (a value the spec leaves open), and the state that has taken it. -/
def State.takeFree (s : State) : Nat × State := (s.free, { s with free := s.free + 1 })

/-- Device time in nanoseconds: 10 for every reference cycle, of 12 core cycles (R29, R369). -/
def State.now (s : State) : Nat := 10 * (s.cyc / 12)

/-- The device's state code (Table 15-9). -/
def State.devState (s : State) : Nat := s.fld (rSys 1) 3 0

/-- Has the start reached Mapped (R371)? A failed start has if the entry time of Mapped is noted. -/
def State.isMapped (s : State) : Bool :=
  (decide (5 ≤ s.devState) && s.devState != 9) || (s.devState == 9 && s.regN (rSys 0x15) != 0)

/-- Does the device take commands: it has reached Mapped (R371 item 1) and is not in Held or Failed (R12) or in Shutdown (R13, R471)? -/
def State.blocksOpen (s : State) : Bool := s.isMapped && s.devState != 6 && s.devState != 9 && s.devState != 10

/-- Is the device in Ready or Serving, where requests are served (Table 0-4)? -/
def State.serves (s : State) : Bool := s.devState == 7 || s.devState == 8

/-- The device enters a state; its first entry since the start is noted in milliseconds (Table 15-14). -/
def State.enter (s : State) (st : Nat) : State :=
  let s := s.setFld (rSys 1) 3 0 st
  let r := rSys (0x10 + st)
  if s.regN r = 0 then s.setRegN r ((s.cyc - s.startCyc) / 1200000) else s

/-! ## Grid (R9 to R11, R24) -/

/-- Logical isle columns: `SYS_ID.LCOLS`, 9 before the image is verified. -/
def State.gridCols (s : State) : Nat := if s.fld (rSys 0) 7 4 = 8 then 8 else 9

/-- The grade's isle count. -/
def State.gridIsles (s : State) : Nat := 8 * s.gridCols

/-- Is a core number one of the grade's logical cores (R10)? -/
def State.coreOk (s : State) (c : CoreId) : Bool :=
  decide (cIsle c < s.gridIsles) && decide (cRow c < 12) && decide (cCol c < 12)

/-- Is a logical isle inside a partition's rectangle (R192)? -/
def Part.covers (q : Part) (gc isle : Nat) : Bool :=
  decide (q.originRow ≤ isle / gc) && decide (isle / gc < q.originRow + q.rows) &&
  decide (q.originCol ≤ isle % gc) && decide (isle % gc < q.originCol + q.cols)

/-- The loaded partition a logical isle belongs to (R332). -/
def State.partOfIsle (s : State) (isle : Nat) : Option Nat :=
  (List.range 8).find? (fun p => (s.part p).loaded && (s.part p).covers s.gridCols isle)

/-- The loaded partition a core belongs to. -/
def State.partOf (s : State) (c : CoreId) : Option Nat := s.partOfIsle (cIsle c)

/-- The partition code of an event record: 0xF for none (Table 21-2). -/
def State.partCode (s : State) (c : CoreId) : Nat := (s.partOf c).getD 15

/-- The partition a core belongs to, the empty one where it belongs to none. -/
def State.partAt (s : State) (c : CoreId) : Part :=
  match s.partOf c with
  | some p => s.part p
  | none => {}

/-- The partition's origin index (R192). -/
def State.originIdx (s : State) (q : Part) : Nat := q.originRow * s.gridCols + q.originCol

/-- A core's directory index in its partition (R213). -/
def State.dirIdx (s : State) (q : Part) (c : CoreId) : Nat :=
  let r := cIsle c / s.gridCols - q.originRow
  let k := cIsle c % s.gridCols - q.originCol
  (r * q.cols + k) * 144 + cRow c * 12 + cCol c

/-- The core at a directory index. -/
def State.dirCore (s : State) (q : Part) (i : Nat) : CoreId :=
  let k := i / 144
  mkCore ((q.originRow + k / q.cols) * s.gridCols + q.originCol + k % q.cols) (i % 144 / 12) (i % 12)

/-- All cores of a partition, in directory order. -/
def State.partCores (s : State) (q : Part) : List CoreId :=
  (List.range (q.rows * q.cols * 144)).map (s.dirCore q)

/-- All logical isles of a partition. -/
def State.partIsles (s : State) (q : Part) : List Nat :=
  (List.range (q.rows * q.cols)).map (fun k => (q.originRow + k / q.cols) * s.gridCols + q.originCol + k % q.cols)

/-- The core record of a core (Table 7-7); the empty record where it holds no layout. -/
def State.coreRec (s : State) (c : CoreId) : CoreRec :=
  let q := s.partAt c
  if q.loaded then fget {} q.dir (s.dirIdx q c) else {}

/-- Update of the record of a directory index. -/
def State.updRec (s : State) (p i : Nat) (f : CoreRec → CoreRec) : State :=
  s.updPart p (fun q => { q with dir := fset {} q.dir i (f (fget {} q.dir i)) })

/-- The assignment `a` of a core (Table 7-8). -/
def State.asg (s : State) (c : CoreId) (a : Nat) : Option Asg := (s.coreRec c).asgs[a]?

/-- The stall root's core (R208). -/
def State.rootOf (s : State) (q : Part) : CoreId :=
  mkCore (q.rootIsle + s.originIdx q) (q.rootCore / 16) (q.rootCore % 16)

end Sys2Proof.Machine
end

