-- ==== Sys2Proof/Machine/Flags.lean ====
section
/-!
DEFINITION. The flags of the device: the event log's records, gap records and alarms (21_telemetry_logs_digests.md R539 to R546), the
event bits that go with them, and the poison flag (03_narrow_formats.md R85, R86, R106).
-/
namespace Sys2Proof.Machine

/-! ## Physical places (R11, R24, R40) -/

/-- The physical isle of a logical isle. -/
def State.physIsle (s : State) (isle : Nat) : Nat :=
  let v := fget 0 s.isleMap isle
  if v = 0 then isle / s.gridCols * 10 + isle % s.gridCols else v - 1

/-- The number of the slice of a site that carries no core: it stands where the commands of a slice name its core (log entry 23). -/
def bareSlice (isle site : Nat) : CoreId := 2 ^ 15 + isle * 256 + site

/-- The core site of a core within its physical isle: row x 13 + column. -/
def State.siteOf (s : State) (c : CoreId) : Nat :=
  if 2 ^ 15 ≤ c then c % 256
  else
    let v := fget 0 s.coreMap c
    if v = 0 then cRow c * 13 + cCol c else v - 1

/-- The physical isle of a core. -/
def State.isleOf (s : State) (c : CoreId) : Nat := if 2 ^ 15 ≤ c then (c - 2 ^ 15) / 256 else s.physIsle (cIsle c)

/-- The number of a core's site over the whole wafer. -/
def State.siteKey (s : State) (c : CoreId) : Nat := s.isleOf c * 169 + s.siteOf c

/-- The physical array that serves a logical array (engine x 8 + array) of a core. -/
def State.arrKey (s : State) (c : CoreId) (logical : Nat) : Nat :=
  let k := s.siteKey c
  let v := fget 0 s.arrMap (k * 64 + logical)
  k * 64 + (if v = 0 then logical else v - 1)

/-- A core-site register of a core. -/
def State.sreg (s : State) (c : CoreId) (w : Nat) : Nat := rSite (s.siteKey c) w

/-! ## The event log -/

/-- The lowest priority class the stage holds below a class (R543 item 1): the largest class code above `cls`, gaps apart. -/
def LogQ.lowest (l : LogQ) (cls : Nat) : Option Nat :=
  ((l.q.map (·.cls)).filter (fun c => decide (cls < c) && decide (c < 5))).max?

/-- Splits off the newest record of a class: the records before it, the record, the records after it. -/
def splitNewest (cls : Nat) (q : List EvRec) : Option (List EvRec × EvRec × List EvRec) :=
  match q.reverse.findIdx? (fun r => r.cls == cls) with
  | none => none
  | some i =>
    let n := q.length - 1 - i
    match q[n]? with
    | some r => some (q.take n, r, q.drop (n + 1))
    | none => none

/-- A gap record in place of a discarded record (R545); `stage` is its C, `seq` the SEQ it carries. -/
def gapOf (d : EvRec) (stage seq : Nat) : EvRec :=
  { d with cls := 5, seq := seq, rep := 0, a := 1, b := 2 ^ d.cls, c := stage }

/-- The newest gap record of a queue extended by one discarded record. -/
def extendGap (d : EvRec) : List EvRec → List EvRec
  | [] => []
  | r :: rs =>
    if rs.any (fun x => x.cls == 5) then r :: extendGap d rs
    else if r.cls == 5 then { r with a := r.a + 1, b := r.b ||| 2 ^ d.cls } :: rs
    else r :: extendGap d rs

/-- A record arriving at a stage of `cap` slots, one of them reserved for a gap record: the stage afterwards and the record discarded, if any
(R543, R545). -/
def LogQ.arrive (l : LogQ) (cap stage : Nat) (r : EvRec) : LogQ × Option EvRec :=
  if l.q.length < cap - 1 ∨ r.cls = 5 then ({ l with q := l.q ++ [r] }, none)
  else
    match l.lowest r.cls with
    | some cls =>
      match splitNewest cls l.q with
      | some (pre, d, post) =>
        if l.gapOpen then ({ l with q := extendGap d (pre ++ post) ++ [r] }, some d)
        else ({ q := pre ++ [gapOf d stage d.seq] ++ post ++ [r], gapOpen := true }, some d)
      | none => (l, some r)
    | none =>
      if l.gapOpen then ({ l with q := extendGap r l.q }, some r)
      else ({ q := l.q ++ [gapOf r stage r.seq], gapOpen := true }, some r)

/-- A record delivered from the front of a stage: further discards open a new gap (R545). -/
def LogQ.pop (l : LogQ) : LogQ := { q := l.q.drop 1, gapOpen := false }

/-- A discarded record counted in `TEL_DROP`, on the host path and on the sideband path as named (R543 item 3); a source without a code of
Table 21-3 has no counter. -/
def State.countDrop (s : State) (d : Option EvRec) (host side : Bool) : State :=
  match d with
  | none => s
  | some r =>
    if r.cls = 0 ∨ 4 < r.cls ∨ 87 ≤ r.source then s
    else
      let s := if host then s.sat32 (rTel (0x100 + 4 * r.source + r.cls - 1)) 1 else s
      if side then s.sat32 (rTel (0x300 + 4 * r.source + r.cls - 1)) 1 else s

/-- A record arriving at the sideband path's queue of 256 records: classes up to `TEL_SB_CTL.MINCLASS` and gaps (R546). -/
def State.toSideband (s : State) (r : EvRec) : State :=
  if r.cls ≤ s.fld (rTel 6) 2 0 ∨ r.cls = 5 then
    let a := s.sideQ.arrive 256 4 r
    { s with sideQ := a.1 }.countDrop a.2 false true
  else s

/-- A record arriving at the central queue of 4,096 records: it takes its SEQ, kept or not, and is offered to the sideband path; in place
of a discarded record the sideband path gets a gap record (R540, R541, R543, R545). -/
def State.toCentral (s : State) (r : EvRec) : State :=
  let r := { r with seq := s.seq }
  let a := s.central.arrive 4096 2 r
  ({ s with central := a.1, seq := (s.seq + 1) % 2 ^ 32 }.countDrop a.2 true true).toSideband
    (if a.2 = some r then gapOf r 2 r.seq else r)

/-- A record arriving at an isle controller's staging of 4,096 records (R540, R543). -/
def State.toStaging (s : State) (isle : Nat) (r : EvRec) : State :=
  let a := (fget {} s.stag isle).arrive 4096 1 r
  ({ s with stag := fset {} s.stag isle a.1 }).countDrop a.2 true true

/-- A record produced by its source: an isle's goes to its staging, another's to the central queue; TIME is the device time. -/
def State.log (s : State) (r : EvRec) : State :=
  let r := { r with time := s.now }
  if r.source < 80 then s.toStaging r.source r else s.toCentral r

/-- Replaces the newest alarm record that meets a condition by its `REPEAT` raised by one. -/
def bumpNewest (p : AlarmRec → Bool) : List AlarmRec → List AlarmRec
  | [] => []
  | x :: xs =>
    if xs.any p then x :: bumpNewest p xs
    else if p x then { x with rec_ := { x.rec_ with rep := Nat.min (x.rec_.rep + 1) 0xFFFF } } :: xs
    else x :: bumpNewest p xs

/-- An alarm's record entering the alarm queue of 1,024 records or coalescing (R544). -/
def State.toAlarmQ (s : State) (r : EvRec) : State :=
  if s.alarms.length < 1024 then
    { s with alarms := s.alarms ++ [{ rec_ := { r with seq := s.seq } }], seq := (s.seq + 1) % 2 ^ 32 }
  else
    let same (x : AlarmRec) := x.rec_.reg == r.reg && x.rec_.bit == r.bit && x.rec_.isle == r.isle
    let src (x : AlarmRec) := x.rec_.source == r.source
    if s.alarms.any same then { s with alarms := bumpNewest same s.alarms }
    else if s.alarms.any src then { s with alarms := bumpNewest src s.alarms }
    else { s with alarms := bumpNewest (fun _ => true) s.alarms }

/-- An alarm (R544): its summary bit and counter in the cycle of the event, then its record. -/
def State.alarm (s : State) (bit : Nat) (r : EvRec) : State :=
  let s := s.orReg (rTel 8) (2 ^ bit)
  let s := s.sat32 (rTel (0x10 + bit)) 1
  s.toAlarmQ { r with cls := 0, time := s.now }

/-- The record of an event at a core's site: source, isle, site and partition filled in. -/
def State.siteRec (s : State) (c : CoreId) (cls bit reg a b c' : Nat) : EvRec :=
  let i := s.isleOf c
  { cls := cls, source := i, part := s.partCode c, bit := bit, reg := reg, isle := i, site := s.siteOf c, a := a, b := b, c := c' }

/-- An event of an isle's event register: the bit is set and a record produced (R77, R288, R312, R459). -/
def State.isleEvent (s : State) (isle reg bit cls part site a b c : Nat) : State :=
  let s := s.orReg (rIsle isle reg) (2 ^ bit)
  s.log { cls := cls, source := isle, part := part, bit := bit, reg := reg, isle := isle, site := site, a := a, b := b, c := c }

/-- An event at a core's site in its isle's event register. -/
def State.siteEvent (s : State) (c : CoreId) (reg bit cls a b c' : Nat) : State :=
  s.isleEvent (s.isleOf c) reg bit cls (s.partCode c) (s.siteOf c) a b c'

/-- A record at most once in a beat for each core site and register (R106, R127, R190). -/
def State.logOnce (s : State) (c : CoreId) (key : Nat) (r : EvRec) : State :=
  if (s.core c).logged.contains key then s
  else (s.updCore c (fun k => { k with logged := key :: k.logged })).log r

/-! ## Security events and debug mode (R533, R534, R536) -/

/-- An event of `SEC_EVENT`: `TAG_FAIL` and `REPLAY` give a warning record, the first in each second only; `LOCKOUT` and `IDE_FAIL` an alarm;
the others an info record. -/
def State.secEvent (s : State) (bit a : Nat) : State :=
  let s := s.orReg (rSec 0x30) (2 ^ bit)
  let r : EvRec := { cls := 2, source := 85, bit := bit, reg := 0x30, a := a }
  if bit = 2 ∨ bit = 3 then s.alarm 4 r
  else if bit ≤ 1 then
    let sec := s.now / 1000000000 + 1
    if fget 0 s.warnAt bit = sec then s else { s with warnAt := fset 0 s.warnAt bit sec }.log r
  else s.log { r with cls := 3 }

/-- A partition enters debug mode (R533). -/
def State.enterDebug (s : State) (p : Nat) : State :=
  { s.updPart p (fun q => { q with debug := true, debugAsk := none }) with debugCount := s.debugCount + 1 }.secEvent 4 p

/-- A partition leaves debug mode (R534). -/
def State.leaveDebug (s : State) (p : Nat) : State := s.updPart p (fun q => { q with debug := false, debugAsk := none })

/-- What was asked of debug mode takes effect at a beat boundary. -/
def State.applyDebug (s : State) (p : Nat) : State :=
  match (s.part p).debugAsk with
  | some true => s.enterDebug p
  | some false => s.leaveDebug p
  | none => s

/-- May a function reach host memory and be reached by it (R527): `REQUIRE_IDE` is 0, or Link IDE (stream 0) or the function's own stream is
secure. -/
def State.ideOk (s : State) (fn : Nat) : Bool :=
  s.fld (rSec 4) 2 2 == 0 || fget 0 s.ide 0 == 2 || fget 0 s.ide (fn + 1) == 2

/-- What a read of host memory through a function returned: nothing where R527 forbids it. -/
def State.dma {α : Type} (s : State) (fn : Nat) (data : Option α) : Option α := if s.ideOk fn then data else none

/-! ## The repair log and repair events (R489, R496) -/

/-- A partition halts at once, its stall items abandoned (R432 item 1). A debug halt in progress ends. -/
def State.haltPart (s : State) (p : Nat) : State :=
  s.updPart p (fun q => { q with halted := true, run := true, items := [], startAt := none })

/-- A defect found now waits to be appended to the repair log. -/
def State.repLog (s : State) (d : Defect) : State := { s with repairQ := s.repairQ ++ [(d, s.now)] }

/-- A site becomes a candidate (R487): event, record, repair log; a candidate or failed site stays what it is. -/
def State.candidate (s : State) (isle site : Nat) : State :=
  let k := isle * 169 + site
  if s.siteCand.contains k || fget 0 s.siteFail k != 0 then s
  else
    let s := { s with siteCand := s.siteCand ++ [k] }.isleEvent isle 0x922 0 2 15 site 0 0 0
    s.repLog { kind := 1, cause := 2, isle := isle, site := site, element := 0 }

/-- The background claims of a kind leave the queues of every slice. -/
def State.dropClaims (s : State) (p : ClaimKind → Bool) : State :=
  (s.cores.map Prod.fst).foldl (fun (s : State) c =>
    if (s.core c).claims.any (fun k => p k.kind) then s.updCore c (fun x => { x with claims := x.claims.filter (fun k => !p k.kind) }) else s) s

/-! ## The poison flag -/

/-- The poison flag of a lane at a core, without a new raise: passed on with the lane's data (R86). The lane state word shows it as `POISON`
(Table 12-2: byte 5, bit 0). -/
def State.passPoison (s : State) (c : CoreId) (lane : Nat) : State :=
  let s := s.updCore c (fun k => { k with poison := k.poison ||| BitVec.ofNat 32 (2 ^ lane) })
  let a := wa spShelf c (0x3F1000 + 64 * lane + 5)
  s.wr a (natLe 1 (s.rdN a 1 ||| 1))

/-- Is a lane's flag set at a core? -/
def State.poisoned (s : State) (c : CoreId) (lane : Nat) : Bool := (s.core c).poison.getLsbD lane

/-- One instruction's raise of the poison flag for a lane, with the causes it met (R85, R86, Table 3-6): counted once, `LAST` the lowest
cause code, and a warning record for the first raise of the site in the beat (R106). -/
def State.raisePoison (s : State) (c : CoreId) (lane : Nat) (causes : List Nat) : State :=
  match causes.min? with
  | none => s
  | some cause =>
    let s := s.passPoison c lane
    let r := s.sreg c 0x860
    let s := (s.satFld r 15 0 1).setFld r 18 16 cause
    s.logOnce c 0x860 (s.siteRec c 2 255 0x860 cause 0 0)

end Sys2Proof.Machine
end

