-- ==== Sys2Proof/Machine/Operands.lean ====
section
/-!
DEFINITION. The operand forms of score instructions: pointers, shelf operands and their window, buffer lines, wafer operands
(08_instruction_reference.md R223, R224), the operations of issued instructions that are still to come (R226), tag actions and the hazard detector
(06_core_and_shelf.md R184, R185), the arbitration of the shelf's bays (R174, R175), lines with their code errors (R180, 10_cabinet.md R304), the lane sheet and the lane state word (12_serving_engine.md Tables 12-1 and 12-2), the version
slots (11_weight_images_and_partitions.md R314), the stall items (09_straits_and_stall_wave.md R279).
-/
namespace Sys2Proof.Machine

/-! ## Score time and operations to come (R198, R226) -/

/-- The score cycle that a core is in. -/
def State.cycle (s : State) (c : CoreId) : Nat := (s.core c).clk - 1

/-- An operation put in its place: after those of its cycle and of earlier ones. -/
def insertOp (o : Op) : List Op → List Op
  | [] => [o]
  | x :: l => if o.at_ < x.at_ then o :: x :: l else x :: insertOp o l

/-- Operations added to those that a core has still to make. -/
def State.addOps (s : State) (c : CoreId) (os : List Op) : State :=
  s.updCore c (fun k => { k with ops := os.foldl (fun l o => insertOp o l) k.ops })

/-- ⌈a / b⌉. -/
def ceilDiv (a b : Nat) : Nat := (a + b - 1) / b

/-- A segment of a foreground read: 32 lines (R294). -/
def segLines : Nat := 32

/-- The requests of a foreground read of `n` lines that begins in cycle `t`, 5 lines in 3 cycles (R294); of them the lines given are fetched,
each with its place in the read. -/
def segOpsAt (port t n : Nat) (lines : List (Nat × Nat)) : List Op :=
  (List.range (ceilDiv n segLines)).map (fun j =>
    { at_ := t + 3 * (segLines * j) / 5, port := port
      act := .segment ((lines.filter (fun x => decide (x.1 / segLines = j))).map (fun x => (x.1 % segLines, x.2))) })

/-- The requests of a foreground read of cabinet lines. -/
def segOps (port t : Nat) (lines : List Nat) : List Op := segOpsAt port t lines.length (lines.zipIdx.map (fun x => (x.2, x.1)))

/-- The numbers of `n` lines from a line-aligned offset. -/
def linesAt (off n : Nat) : List Nat := (List.range n).map (fun k => off / 64 + k)

/-- Core cycles from a segment request to its first line at the port (R294). -/
def segLead : Nat := 16

/-! ## Pointers (R223, R224) -/

/-- A pointer register; `PT0` reads as 0. -/
def State.ptr (s : State) (c : CoreId) (i : Nat) : BitVec 48 := if i = 0 then 0 else fget 0 (s.core c).pts i

/-- A pointer register set; writes to `PT0` are ignored. -/
def State.setPtr (s : State) (c : CoreId) (i : Nat) (v : BitVec 48) : State :=
  if i = 0 then s else s.updCore c (fun k => { k with pts := fset 0 k.pts i v })

/-- The offset field of a pointer. -/
def State.ptrOff (s : State) (c : CoreId) (i : Nat) : Nat := (s.ptr c i).toNat % 2 ^ 29

/-- A shelf operand of `n` lines is line-aligned and inside the shelf (R224). -/
def shelfOk (off n : Nat) : Bool := decide (off % 64 = 0) && decide (off + 64 * n ≤ 0x400000) && decide (off < 0x400000)

/-- A pointer's wafer address with the partition's origin added to its isle (R192). -/
def State.ptrWafer (s : State) (c : CoreId) (i : Nat) : Nat :=
  let a := (s.ptr c i).toNat
  let isle := (a / 2 ^ 37 % 128 + s.originIdx (s.partAt c)) % 128
  a / 2 ^ 44 * 2 ^ 44 + isle * 2 ^ 37 + a % 2 ^ 37

/-- The first offsets of the operand buffers (Table 6-3). -/
def bufCim (eng : Nat) : Nat := eng * 16384
def bufAtt : Nat := 98304
def bufVec : Nat := 163840

/-! ## Windows of the system reserve (R187, R188) -/

/-- May a score read a shelf offset (Table 6-4)? -/
def shelfReadable (off : Nat) : Bool :=
  decide (off < 0x3F0800) || (decide (0x3F1000 ≤ off) && decide (off < 0x3F2000))

/-- May a score write a shelf offset (Table 6-4)? -/
def shelfWritable (off : Nat) : Bool :=
  decide (off < 0x3F0000) || (decide (0x3F1000 ≤ off) && decide (off < 0x3F1800))

/-- Where an access of a score, a remote flow or an engine to a cabinet offset goes (R188, R314): the offset reached, or none where the
access reads 0 and a write is discarded; `transfer` says that the transfer engine makes it. -/
def State.cabReach (s : State) (c : CoreId) (off : Nat) (transfer : Bool) : Option Nat :=
  let r := s.coreRec c
  let q := s.partAt c
  if 0x5600000 ≤ off then (if transfer && decide (off < 0x5700000) then some off else none)
  else if r.masterLen ≠ 0 ∧ r.masterBase ≤ off ∧ off < r.masterBase + r.masterLen then
    some (off + (if q.liveSlot = 1 then r.masterLen else 0))
  else if r.masterLen ≠ 0 ∧ r.masterBase + r.masterLen ≤ off ∧ off < r.masterBase + 2 * r.masterLen then none
  else some off

/-- May a score write a cabinet offset: not into the live or the inactive version slot (R191, R314)? -/
def State.cabWritable (s : State) (c : CoreId) (off : Nat) (transfer : Bool) : Bool :=
  let r := s.coreRec c
  (s.cabReach c off transfer).isSome &&
  !(decide (r.masterLen ≠ 0) && decide (r.masterBase ≤ off) && decide (off < r.masterBase + 2 * r.masterLen))

/-! ## Lines -/

/-- The all-ones line an uncorrectable codeword returns (R180, R304). -/
def onesLine : Bytes := List.replicate 64 0xFF

/-- A line of zeros. -/
def zeroLine : Bytes := List.replicate 64 0

/-- The number of a line of a core for the list of uncorrectable lines. -/
def lineId (space off : Nat) : Nat := space * 2 ^ 29 + off / 64

/-- Is a line's codeword uncorrectable? -/
def State.isBad (s : State) (c : CoreId) (space off : Nat) : Bool := (s.core c).bad.contains (lineId space off)

/-- A line becomes uncorrectable. -/
def State.markBad (s : State) (c : CoreId) (space off : Nat) : State :=
  if s.isBad c space off then s else s.updCore c (fun k => { k with bad := lineId space off :: k.bad })

/-- A line as read: all ones where its codeword is uncorrectable. -/
def State.rdLine (s : State) (c : CoreId) (space off : Nat) : Bytes :=
  if s.isBad c space off then onesLine else s.rd (wa space c off) 64

/-- A line written whole: a new codeword. -/
def State.wrLine (s : State) (c : CoreId) (space off : Nat) (bs : Bytes) : State :=
  let s := s.wr (wa space c off) bs
  if s.isBad c space off then s.updCore c (fun k => { k with
    bad := k.bad.filter (fun l => l != lineId space off), badSyn := if space = spCabinet then fset 0 k.badSyn (off / 64) 0 else k.badSyn }) else s

/-- The `i`-th 64-byte piece of a run of bytes. -/
def piece (bs : Bytes) (i : Nat) : Bytes := (bs.drop (64 * i)).take 64

/-- A run of `n` lines of an operand buffer, without its errors. -/
def State.bufRun (s : State) (c : CoreId) (off n : Nat) : Bytes :=
  ((List.range n).map (fun k => s.rdLine c spBuf (off + 64 * k))).flatten

/-- The errors that the reads of one space meet, by the numbers of the lines: correctable ones and uncorrectable ones. -/
def lineErrs (space : Nat) (corr unc : List Nat) : List LineErr :=
  unc.map (fun l => { space := space, line := l, corr := false }) ++ corr.map (fun l => { space := space, line := l, corr := true })

/-- The error found in a line as it is read. -/
def errOf (errs : List LineErr) (space line : Nat) : Option LineErr := errs.find? (fun e => decide (e.space = space) && decide (e.line = line))

/-- A corrected line (R180 item 1): counted; a shelf line waits for its write-back. -/
def State.corrected (s : State) (c : CoreId) (space line : Nat) : State :=
  let r := s.sreg c 0x890
  if space = spShelf then
    let s := s.satFld r 7 0 1
    if (s.core c).wback.contains (space, line) then s else s.updCore c (fun k => { k with wback := k.wback ++ [(space, line)] })
  else s.satFld r 23 16 1

/-- An uncorrectable line met by a read (R180 item 2): counted and logged as an error with its space, line and beat; it stays as it is. -/
def State.uncorrectable (s : State) (c : CoreId) (space line : Nat) : State :=
  let r := s.sreg c 0x890
  let s := (if space = spShelf then s.satFld r 15 8 1 else s.satFld r 31 24 1).markBad c space (64 * line)
  s.log (s.siteRec c 1 255 0x890 space line ((s.partAt c).beat % 2 ^ 32))

/-- A line of the shelf or of an operand buffer read through its code (R180); `errs` lists the errors that the reads of this command or
instruction find. -/
def State.readLine (s : State) (c : CoreId) (errs : List LineErr) (space off : Nat) : Bytes × State :=
  match errOf errs space (off / 64) with
  | some e =>
    if e.corr && !s.isBad c space off then (s.rdLine c space off, s.corrected c space (off / 64))
    else (onesLine, s.uncorrectable c space (off / 64))
  | none => if s.isBad c space off then (onesLine, s.uncorrectable c space (off / 64)) else (s.rdLine c space off, s)

/-- A run of `n` lines read through their codes. -/
def State.readRun (s : State) (c : CoreId) (errs : List LineErr) (space off n : Nat) : Bytes × State :=
  (List.range n).foldl (fun (x : Bytes × State) k =>
    let (bs, s) := x.2.readLine c errs space (off + 64 * k)
    (x.1 ++ bs, s)) ([], s)

/-! ## Stall items (R209, R279) -/

/-- The distance of a core from its partition's root (R208). -/
def State.dist (s : State) (q : Part) (c : CoreId) : Nat :=
  let root := s.rootOf q
  let gc := s.gridCols
  let r := cIsle c / gc * 12 + cRow c
  let k := cIsle c % gc * 12 + cCol c
  let a := cIsle root / gc * 12 + cRow root
  let b := cIsle root % gc * 12 + cCol root
  let d (x y : Nat) : Nat := (x - y) + (y - x)
  d r a + d k b + 3 * (d (r / 12) (a / 12) + d (k / 12) (b / 12))

/-- A unit of a core raises its cause level in this cycle (R279 item 1); without a partition there is no root to see it. -/
def State.declare (s : State) (c : CoreId) (cause : Nat) : State :=
  match s.partOf c with
  | none => s
  | some p => s.updPart p (fun q => { q with items := q.items ++ [{ core := c, cause := cause, up := s.cyc }] })

/-- The first outstanding item of a core and cause is lowered in this cycle. -/
def lowerFirst (c : CoreId) (cause now : Nat) : List Item → List Item
  | [] => []
  | i :: is =>
    if i.core = c ∧ i.cause = cause ∧ i.down = none then { i with down := some now } :: is
    else i :: lowerFirst c cause now is

/-- An item completes: the unit lowers its cause level (R279 item 1). -/
def State.complete (s : State) (c : CoreId) (cause : Nat) : State :=
  match s.partOf c with
  | none => s
  | some p => s.updPart p (fun q => { q with items := lowerFirst c cause s.cyc q.items })

/-- Does a core have an outstanding item of a cause? -/
def State.outstanding (s : State) (c : CoreId) (cause : Nat) : Bool :=
  (s.partAt c).items.any (fun i => decide (i.core = c) && decide (i.cause = cause) && decide (i.down = none))

/-! ## Tags and hazards (R184, R185) -/

/-- The number of a line for its tag. -/
def tagKey (space line : Nat) : Nat := space * 65536 + line

/-- Is a line's tag Full? -/
def State.full (s : State) (c : CoreId) (space line : Nat) : Bool := fget false (s.core c).tags (tagKey space line)

/-- A line's tag set. -/
def State.setFull (s : State) (c : CoreId) (space line : Nat) (v : Bool) : State :=
  s.updCore c (fun k => { k with tags := fset false k.tags (tagKey space line) v })

/-- A violation seen by the hazard detector in the cycle of the access (R185, R186): only in debug mode, only the first until the partition resumes; recorded unless
a record is held, and an item that never completes is declared (cause 7). -/
def State.hazard (s : State) (c : CoreId) (kind port space line : Nat) : State :=
  let q := s.partAt c
  if q.debug = false ∨ q.items.any (fun i => decide (i.cause = 7) && decide (i.down = none)) then s
  else
    let r := s.sreg c 0x893
    let s :=
      if s.fld r 0 0 = 1 then s
      else
        let s := s.setFld r 6 0 (1 + 2 * kind + 16 * port)
        let s := s.setFld r 7 7 (if space = spShelf then 0 else 1)
        let s := s.setFld (s.sreg c 0x894) 15 0 line
        s.setReg64 (s.sreg c 0x895) (s.cycle c)
    s.declare c 7

/-- The source tag action on one line (R184). -/
def State.tagSrc (s : State) (c : CoreId) (a : SrcAct) (port space off : Nat) : State :=
  match a with
  | .none => s
  | .read => if s.full c space (off / 64) then s else s.hazard c 1 port space (off / 64)
  | .drain =>
    let s := if s.full c space (off / 64) then s else s.hazard c 1 port space (off / 64)
    s.setFull c space (off / 64) false

/-- The destination tag action on one line (R184). -/
def State.tagDst (s : State) (c : CoreId) (fill : Bool) (port space off : Nat) : State :=
  if fill then
    let s := if s.full c space (off / 64) then s.hazard c 2 port space (off / 64) else s
    s.setFull c space (off / 64) true
  else s

/-- The source tag action on `n` consecutive lines. -/
def State.tagSrcRun (s : State) (c : CoreId) (a : SrcAct) (port space off n : Nat) : State :=
  (List.range n).foldl (fun s k => s.tagSrc c a port space (off + 64 * k)) s

/-- The destination tag action on `n` consecutive lines. -/
def State.tagDstRun (s : State) (c : CoreId) (fill : Bool) (port space off n : Nat) : State :=
  (List.range n).foldl (fun s k => s.tagDst c fill port space (off + 64 * k)) s

/-! ## Class S arbitration (R174, R175) -/

/-- Does access `x` come before access `y` among the accesses of a bay (R174 rules 1 and 3)? -/
def busBefore (x y : Acc) : Bool := if x.wide = y.wide then decide (x.port < y.port) else x.wide

/-- Is an access dropped among the accesses of its cycle (R174 rule 3): the first access of its bay is to another line? The accesses of one
port do not compete with each other. -/
def busDropped (me : Acc) (accs : List Acc) : Bool :=
  let bay := accs.filter (fun o => decide (o.port ≠ me.port) && decide (o.line % 4 = me.line % 4))
  let first := bay.foldl (fun f o => if busBefore o f then o else f) me
  decide (first.line ≠ me.line)

/-- The words of a write that a lower-numbered port writes too in its cycle (R174 rule 2). -/
def busLost (me : Acc) (accs : List Acc) : BitVec 16 :=
  (accs.filter (fun o => decide (o.line = me.line) && o.wr && decide (o.port < me.port))).foldl (fun m o => m ||| (o.mask &&& me.mask)) 0

/-- A dropped access or a write that lost words: counted in every mode, a hazard in debug mode (R175, R185). -/
def State.conflict (s : State) (c : CoreId) (me : Acc) (lost : Bool) : State :=
  if me.wide || lost then (s.satFld (s.sreg c 0x891) 15 0 1).hazard c 3 me.port spShelf me.line
  else (s.satFld (s.sreg c 0x891) 31 16 1).hazard c 4 me.port spShelf me.line

/-- 64 bytes that the spec leaves open: free values (R175 item 1). -/
def freeLine (n : Nat) : Bytes := (List.range 64).map (fun i => Config.freeByte n i)

/-- A shelf line read by a unit among the accesses of its cycle: the bytes, whether the access was dropped. A read outside the windows of
R187 returns 0. -/
def State.busRead (s : State) (c : CoreId) (accs : List Acc) (errs : List LineErr) (a : SrcAct) (port off : Nat) (wide : Bool) :
    (Bytes × Bool) × State :=
  let me : Acc := { port := port, line := off / 64, wide := wide }
  let s := s.tagSrc c a port spShelf off
  if busDropped me accs then
    let (n, s) := s.takeFree
    ((freeLine n, true), s.conflict c me false)
  else if shelfReadable off then
    let (bs, s) := s.readLine c errs spShelf off
    ((bs, false), s)
  else ((zeroLine, false), s)

/-- Consecutive shelf lines read wide in one cycle. -/
def State.busRun (s : State) (c : CoreId) (accs : List Acc) (errs : List LineErr) (a : SrcAct) (port off n : Nat) : (Bytes × Bool) × State :=
  (List.range n).foldl (fun (x : (Bytes × Bool) × State) k =>
    let (r, s) := x.2.busRead c accs errs a port (off + 64 * k) true
    ((x.1.1 ++ r.1, x.1.2 || r.2), s)) (([], false), s)

/-- The words of a line that `n` bytes from a byte of it touch. -/
def wordMask (at_ n : Nat) : BitVec 16 :=
  BitVec.ofNat 16 (((List.range 16).filter (fun w => decide (at_ < 4 * w + 4) && decide (4 * w < at_ + n))).foldl (fun m w => m + 2 ^ w) 0)

/-- The access that a write of bytes inside a shelf line makes: wide for a whole line (R171). -/
def wrAcc (port off n : Nat) : Acc :=
  { port := port, line := off / 64, wide := decide (n = 64), wr := true, mask := wordMask (off % 64) n }

/-- The bytes of a line with a run of bytes put into it, but for the words of a mask. -/
def patchLine (old : Bytes) (at_ : Nat) (bs : Bytes) (lost : BitVec 16) : Bytes :=
  (List.range 64).map (fun i => if at_ ≤ i ∧ i < at_ + bs.length ∧ lost.getLsbD (i / 4) = false then bs.getD (i - at_) 0 else old.getD i 0)

/-- Bytes written inside one shelf line by a unit among the accesses of its cycle: dropped they are not written, words lost keep what the
other write puts there; outside the windows of R187 they are discarded. The line's tag is set as for a write performed (log entry 106). -/
def State.busWrite (s : State) (c : CoreId) (accs : List Acc) (fill : Bool) (port off : Nat) (bs : Bytes) : State :=
  let me := wrAcc port off bs.length
  let line := off / 64 * 64
  let s := s.tagDst c fill port spShelf line
  if busDropped me accs then s.conflict c me false
  else
    let lost := busLost me accs
    let s := if lost = 0 then s else s.conflict c me true
    if shelfWritable off = false then s
    else if bs.length = 64 ∧ lost = 0 then s.wrLine c spShelf off bs
    else s.wr (wa spShelf c line) (patchLine (s.rd (wa spShelf c line) 64) (off % 64) bs lost)

/-- An operand-buffer line read by its engine. -/
def State.bufRead (s : State) (c : CoreId) (errs : List LineErr) (a : SrcAct) (port off : Nat) : Bytes × State :=
  (s.tagSrc c a port spBuf off).readLine c errs spBuf off

/-- Consecutive operand-buffer lines read by their engine. -/
def State.bufReads (s : State) (c : CoreId) (errs : List LineErr) (a : SrcAct) (port off n : Nat) : Bytes × State :=
  (List.range n).foldl (fun (x : Bytes × State) k =>
    let (bs, s) := x.2.bufRead c errs a port (off + 64 * k)
    (x.1 ++ bs, s)) ([], s)

/-- Bytes written inside one operand-buffer line; the tag is checked and set with the line's first bytes. -/
def State.bufWrite (s : State) (c : CoreId) (fill : Bool) (port off : Nat) (bs : Bytes) : State :=
  let s := if off % 64 = 0 then s.tagDst c fill port spBuf off else s
  if bs.length = 64 ∧ off % 64 = 0 then s.wrLine c spBuf off bs else s.wr (wa spBuf c off) bs

/-- The wide reads of `n` consecutive shelf lines. -/
def readAccs (port off n : Nat) : List Acc := (List.range n).map (fun k => { port := port, line := off / 64 + k, wide := true })

/-- The operation that writes bytes inside one line of the shelf or of an operand buffer. -/
def writeOp (port at_ space off : Nat) (bs : Bytes) (fill : Bool) : Op :=
  { at_ := at_, port := port, act := .write space off bs fill, accs := if space = spShelf then [wrAcc port off bs.length] else [] }

/-- The operations that write a run of bytes to consecutive lines of a space, line `k` in cycle `at_ k`. -/
def runOps (port space off : Nat) (bs : Bytes) (fill : Bool) (at_ : Nat → Nat) : List Op :=
  (List.range (ceilDiv bs.length 64)).map (fun k => writeOp port (at_ k) space (off + 64 * k) (piece bs k) fill)

/-- The operation that makes a part of an instruction. -/
def partOp (port at_ : Nat) (j : Job) (accs : List Acc) : Op := { at_ := at_, port := port, act := .part j, accs := accs }

/-! ## The lane sheet and the lane state word -/

/-- Offset of a lane's entry in the current sheet (R202) and in the next one. -/
def sheetOff (lane : Nat) : Nat := 0x3F0000 + 64 * lane
def nextSheetOff (lane : Nat) : Nat := 0x3F0800 + 64 * lane

/-- Offset of a lane's state word (Table 12-2). -/
def wordOff (lane : Nat) : Nat := 0x3F1000 + 64 * lane

/-- A field of a lane sheet entry (Table 12-1). -/
def entVariant (e : Bytes) : Nat := leNat (e.take 1) % 8
def entFlag (e : Bytes) (bit : Nat) : Bool := leNat ((e.drop 1).take 1) / 2 ^ bit % 2 == 1
def entOcc (e : Bytes) : Bool := entFlag e 0
def entNew (e : Bytes) : Bool := entFlag e 1
def entVoid (e : Bytes) : Bool := entFlag e 2
def entRelv (e : Bytes) : Bool := entFlag e 3
def entKind (e : Bytes) : Nat := leNat ((e.drop 1).take 1) / 16 % 4
def entExp (e : Bytes) : Bool := entFlag e 6
def entLastp (e : Bytes) : Bool := entFlag e 7
def entN (e : Bytes) : Nat := leNat ((e.drop 2).take 1) % 32
def entClass (e : Bytes) : Nat := leNat ((e.drop 2).take 1) / 32
def entMap (e : Bytes) : Nat := leNat ((e.drop 4).take 2) % 8192
def entRel (e : Bytes) : Nat := leNat ((e.drop 6).take 2) % 8192
def entPos0 (e : Bytes) : Nat := leNat ((e.drop 8).take 4) % 2 ^ 19
def entTok (e : Bytes) (i : Nat) : Nat := leNat ((e.drop (16 + 3 * i)).take 3)

/-- A lane's entry in a core's current sheet. -/
def State.sheetEnt (s : State) (c : CoreId) (lane : Nat) : Bytes := s.rdLine c spShelf (sheetOff lane)

/-- A lane's state word at a core. -/
def State.laneWord (s : State) (c : CoreId) (lane : Nat) : Bytes := s.rd (wa spShelf c (wordOff lane)) 64

/-- A field of a lane state word set. -/
def State.wordPut (s : State) (c : CoreId) (lane at_ : Nat) (bs : Bytes) : State :=
  s.wr (wa spShelf c (wordOff lane + at_)) bs

/-- A flag of byte 5 of a lane state word: 0 POISON, 1 VOID, 2 STOP, 3 EMPTY, 4 KVX. -/
def State.wordFlag (s : State) (c : CoreId) (lane bit : Nat) : Bool :=
  s.rdN (wa spShelf c (wordOff lane + 5)) 1 / 2 ^ bit % 2 == 1

/-- A flag of byte 5 set. -/
def State.setWordFlag (s : State) (c : CoreId) (lane bit : Nat) : State :=
  let v := s.rdN (wa spShelf c (wordOff lane + 5)) 1
  s.wordPut c lane 5 (natLe 1 (v ||| 2 ^ bit))

/-- A unit's current lane and digest settings (R235). Units: 0 CIM engines 0-2, 1 CIM engines 3-5, 2 attention, 3 vector, 4 transfer. -/
def State.unit (s : State) (c : CoreId) (u : Nat) : UnitCtx := fget {} (s.core c).units u

/-- The unit of a CIM engine. -/
def cimUnit (eng : Nat) : Nat := if eng < 3 then 0 else 1

/-- The port of a CIM engine (Table 6-1). -/
def cimPort (eng : Nat) : Nat := if eng < 3 then 1 else 2

/-! ## Digests (21_telemetry_logs_digests.md R549) -/

/-- The hash one element adds. -/
def digHash (i tensor v : Nat) : Nat :=
  let m := 2 ^ 64
  let x := ((i + tensor * 2 ^ 32) * 0x9E3779B97F4A7C15 + v) % m
  let x := (x ^^^ (x / 2 ^ 30)) * 0xBF58476D1CE4E5B9 % m
  let x := (x ^^^ (x / 2 ^ 27)) * 0x94D049BB133111EB % m
  x ^^^ (x / 2 ^ 31)

/-- Elements a unit writes, added to the digest of the lane and tensor of its instruction's context while digests are enabled (R235, R549); the slot's
accumulation lies in the shelf reserve (Table 6-4). A second unit on a slot, or a second `TENSOR` base of a lane between flushes,
makes the lane's next record unpredictable. -/
def State.digest (s : State) (c : CoreId) (u : Nat) (x : UnitCtx) (elems : List Nat) : State :=
  let q := s.partAt c
  if x.dg && q.digestsOn && !elems.isEmpty then
    let slot := x.tensor % 64
    let key := x.lane * 64 + slot
    let base := x.tensor - slot
    let k := s.core c
    let n := fget 0 k.digN key
    let ib := (s.coreRec c).ibase.getD slot 0
    let a := wa spShelf c (0x3F4000 + 8 * key)
    let sum := (elems.foldl (fun (p : Nat × Nat) v => (p.1 + 1, p.2 + digHash (ib + n + p.1) x.tensor v)) (0, s.rdN a 8)).2
    let s := s.wr a (natLe 8 (sum % 2 ^ 64))
    let who := fget 0 k.digU key
    let bases := fget [] k.digBase x.lane
    let bad := (decide (who ≠ 0) && decide (who ≠ u + 1)) || (!bases.isEmpty && !bases.contains base)
    s.updCore c (fun k => { k with
      digN := fset 0 k.digN key (n + elems.length)
      digU := fset 0 k.digU key (u + 1)
      digBase := if bases.contains base then k.digBase else fset [] k.digBase x.lane (base :: bases)
      digBad := if bad && !k.digBad.contains x.lane then x.lane :: k.digBad else k.digBad })
  else s

/-- The little-endian numbers of `w` bytes each in a run of bytes. -/
def words (w : Nat) (bs : Bytes) : List Nat := (List.range (bs.length / w)).map (fun i => leNat ((bs.drop (w * i)).take w))

/-- Numbers as little-endian runs of `w` bytes. -/
def unwords (w : Nat) (l : List Nat) : Bytes := (l.map (natLe w)).flatten

/-! ## Accumulator memory as bytes (R115, R116, R121) -/

/-- The 64 bytes of a codeword as read: quiet NaNs where it is uncorrectable (R116 item 2), free values where the contents are undefined (R121). -/
def State.accBytes (s : State) (c : CoreId) (off : Nat) : Bytes :=
  if s.isBad c spAcc off then unwords 4 (List.replicate 16 0x7FC00000)
  else if fget 0 (s.core c).acc (off / 64) = 1 then s.rd (wa spAcc c off) 64
  else unwords 4 ((List.range 16).map (fun e => (Config.freeAcc s.accEpoch (s.core c).accGen c (off / 4 + e)).toNat))

/-- Bytes written within one line; what is not written of an undefined line stays what it was. -/
def State.accWrite (s : State) (c : CoreId) (off : Nat) (bs : Bytes) : State :=
  let line := off / 64 * 64
  let whole := decide (bs.length = 64) && off % 64 == 0
  let s := if whole || fget 0 (s.core c).acc (off / 64) == 1 then s else s.wr (wa spAcc c line) (s.accBytes c line)
  let s := s.updCore c (fun k => { k with acc := fset 0 k.acc (off / 64) 1 })
  if whole then s.wrLine c spAcc off bs else s.wr (wa spAcc c off) bs

/-- An uncorrectable codeword read: counted, and logged once in a beat (R116, R127). -/
def State.accUncorr (s : State) (c : CoreId) (eng t : Nat) : State :=
  let s := s.satFld (s.sreg c 0x870) 31 16 1
  s.logOnce c 0x870 (s.siteRec c 1 255 0x870 eng t 0)

/-- A codeword of an accumulator read through its code, with the errors that the reads find (R116). -/
def State.accRead (s : State) (c : CoreId) (errs : List LineErr) (off : Nat) : Bytes × State :=
  let bad (s : State) := (s.markBad c spAcc off).accUncorr c (off / 65536) (off % 65536 / 2048)
  match errOf errs spAcc (off / 64) with
  | some e =>
    if e.corr && !s.isBad c spAcc off then (s.accBytes c off, s.satFld (s.sreg c 0x870) 15 0 1)
    else
      let s := bad s
      (s.accBytes c off, s)
  | none => if s.isBad c spAcc off then (s.accBytes c off, bad s) else (s.accBytes c off, s)

/-- A core's accumulators become undefined (R121). -/
def Core.loseAcc (k : Core) : Core := { k with acc := [], accGen := k.accGen + 1 }

end Sys2Proof.Machine
end

