-- ==== Sys2Proof/Machine/CabCode.lean ====
section
/-!
DEFINITION. A cabinet line read and checked (10_cabinet.md R303 to R306, R311, R312): counters, the last syndrome, the events, the
write-back of a corrected line.
-/
namespace Sys2Proof.Machine

/-- The bank of a cabinet line (Table 10-1). -/
def bankOf (line : Nat) : Nat := line % 16

/-- The logical row of a cabinet line. -/
def rowOf (line : Nat) : Nat := line / 512

/-- An event of `CAB_EVENT` at a core's site (R312): bit and record, the record once in a beat for each kind and site. -/
def State.cabEvent (s : State) (c : CoreId) (bit cls a b cc : Nat) : State :=
  let s := s.orReg (rIsle (s.isleOf c) 0x8C5) (2 ^ bit)
  s.logOnce c (0x8C50 + bit) (s.siteRec c cls bit 0x8C5 a b cc)

/-- The last syndrome registers (Tables 10-4 and 10-5). -/
def State.cabLast (s : State) (c : CoreId) (syn line kind reader : Nat) : State :=
  let s := s.setRegN (s.sreg c 0x8C1) syn
  s.setRegN (s.sreg c 0x8C2) (line % 2 ^ 21 + kind * 2 ^ 21 + reader * 2 ^ 23)

/-- A cabinet line read by the transfer engine or by a remote flow (R188, R304, R314). -/
def State.cabRd (s : State) (c : CoreId) (off : Nat) (transfer : Bool) : Bytes :=
  match s.cabReach c off transfer with
  | none => zeroLine
  | some o => s.rdLine c spCabinet o

/-- A line enters the write buffer of a slice (R295): memory shows it from now on. -/
def State.cabPut (s : State) (c : CoreId) (off : Nat) (bs : Bytes) : State :=
  (s.wrLine c spCabinet off bs).updCore c (fun k => { k with wbuf := k.wbuf.filter (fun l => l != off / 64) ++ [off / 64] })

/-- A cabinet line written by a score or a remote flow: discarded outside its windows (R188, R191, R314). -/
def State.cabWr (s : State) (c : CoreId) (off : Nat) (bs : Bytes) (transfer : Bool) : State :=
  if s.cabWritable c off transfer then s.cabPut c off bs else s

/-- Bytes changed inside a slice: each line they touch is read, changed and written whole. -/
def State.cabPatch (s : State) (c : CoreId) (off : Nat) (bs : Bytes) : State :=
  (List.range (ceilDiv (off % 64 + bs.length) 64)).foldl (fun s k =>
    let line := off / 64 * 64 + 64 * k
    let from_ := 64 * k - off % 64
    let at_ := if k = 0 then off % 64 else 0
    s.cabPut c line (patchLine (s.rdLine c spCabinet line) at_ ((bs.drop from_).take (64 - at_)) 0)) s

/-- A segment request of a foreground read (R294, R300): its lines are due at the port; with a bank's debt of 7 or more a refresh collision is
declared (cause 2), once while it is outstanding. A line of a window that reads as zero is not fetched (R188, R314). -/
def State.foreground (s : State) (c : CoreId) (lines : List (Nat × Nat)) : State :=
  let t := s.cycle c
  let due := lines.filterMap (fun x => (s.cabReach c (64 * x.2) true).map (fun o => (o / 64, t + segLead + 3 * x.1 / 5)))
  let s := s.updCore c (fun k => { k with due := k.due ++ due })
  if ((s.core c).debts.any (fun p => decide (7 ≤ p.2))) && !s.outstanding c 2 then
    (s.satFld (s.sreg c 0x8C3) 15 0 1).declare c 2
  else s

/-- A background claim put into the slice's queue, behind those of its priority or above (R296). -/
def State.claim (s : State) (c : CoreId) (k : Claim) : State :=
  s.updCore c (fun x =>
    let ahead (y : Claim) : Bool := decide (y.prio ≤ k.prio)
    { x with claims := x.claims.takeWhile ahead ++ [k] ++ x.claims.dropWhile ahead })

/-- Spare rows left in a bank (R289, R308). -/
def spareRows (k : Core) (bank : Nat) : Nat := 256 - fget 0 k.spareUsed bank

/-- The rows of a bank whose copy to a spare row is under way (R307). -/
def rowsWaiting (k : Core) (bank : Nat) : Nat := (k.rowWait.filter (fun w => decide (w / 4096 = bank))).length

/-- `CAB_ROWS` brought up to date after a row took a spare (Table 10-7): the bank with the fewest left, the lowest on a tie. -/
def State.rowsLeft (s : State) (c : CoreId) : State :=
  let k := s.core c
  let left := (List.range 16).map (spareRows k)
  let least := left.foldl Nat.min 256
  let r := s.sreg c 0x8C4
  (s.setFld r 8 0 least).setFld r 12 9 (left.findIdx (· == least))

/-- A row takes a spare row of its bank (R306, R308). -/
def State.takeRow (s : State) (c : CoreId) (bank row : Nat) : State :=
  let key := bank * 4096 + row
  let s := s.updCore c (fun k =>
    let used := fget 0 k.spareUsed bank
    { k with rowMap := fset 0 k.rowMap key (used + 1), spareUsed := fset 0 k.spareUsed bank (used + 1) })
  let s := s.rowsLeft c
  if spareRows (s.core c) bank ≤ 16 then s.cabEvent c 2 2 (64 * (row * 512 + bank)) 0 bank else s

/-- A retirement is due for the row of a line (R306): the row's copy is claimed at priority 4, or the bank has no spare row left for it
(R308); nothing more while the copy waits. -/
def State.rowDue (s : State) (c : CoreId) (line : Nat) : State :=
  let bank := bankOf line
  let row := rowOf line
  let first := row * 512 + bank
  if (s.core c).rowWait.contains (bank * 4096 + row) then s
  else if spareRows (s.core c) bank ≤ rowsWaiting (s.core c) bank then s.cabEvent c 3 1 (first * 64) 0 bank
  else
    let s := s.updCore c (fun k => { k with rowWait := (bank * 4096 + row) :: k.rowWait })
    (List.range 32).foldl (fun s i => s.claim c { prio := 4, off := 64 * (first + 16 * i), kind := .rowCopy }) s

/-- A line read from the cabinet and checked (R303, R304): `reader` is the code of `CAB_SYN_LINE.READER`, `err` the error pattern of the
codeword. A line that is uncorrectable already has the syndrome it was found with. -/
def State.cabCheck (s : State) (c : CoreId) (line : Nat) (err : BitVec 544) (reader : Nat) : State :=
  let bad (s : State) (syn : Nat) : State :=
    let s := s.satFld (s.sreg c 0x8C0) 31 16 1
    let s := s.cabLast c syn line 3 reader
    let s := s.markBad c spCabinet (64 * line)
    let s := s.updCore c (fun k => { k with badSyn := fset 0 k.badSyn line syn })
    s.cabEvent c 0 1 (64 * line) syn (bankOf line + 16 * reader)
  let fixed (s : State) (kind : Nat) : State :=
    let s := s.satFld (s.sreg c 0x8C0) 15 0 1
    let s := s.cabLast c (syndrome err) line kind reader
    let again := decide (fget 0 (s.core c).rowCorr line ≠ 0) &&
      !(s.core c).claims.any (fun k => k.kind == .corrected && decide (k.off = 64 * line))
    let s := s.claim c { prio := 3, off := 64 * line, kind := .corrected }
    let s := s.updCore c (fun k => { k with rowCorr := fset 0 k.rowCorr line 2 })
    let lines := ((s.core c).rowCorr.filter (fun p =>
      decide (p.2 = 2) && decide (rowOf p.1 = rowOf line) && decide (bankOf p.1 = bankOf line))).length
    if again || decide (4 ≤ lines) then s.rowDue c line else s
  let known := fget 0 (s.core c).badSyn line
  if s.isBad c spCabinet (64 * line) then bad s (if known = 0 then syndrome err else known)
  else
    match decodeErr err with
    | .clean => s
    | .data _ _ => fixed s 1
    | .check _ => fixed s 2
    | .bad => bad s (syndrome err)

/-- A foreground line arrives at its port and is checked (R294, R303, R304). -/
def State.arrive (s : State) (c : CoreId) (line : Nat) (err : BitVec 544) : State :=
  (s.updCore c (fun k => { k with due := k.due.eraseP (fun d => decide (d.1 = line)) })).cabCheck c line err 0

/-- The foreground lines whose cycle has come arrive, without an error of their own. -/
def State.arriveDue (s : State) (c : CoreId) (t : Nat) : State :=
  ((s.core c).due.filter (fun d => decide (d.2 ≤ t))).foldl (fun s d => s.arrive c d.1 0) s

/-- Is a bank's line due within the next 32 cycles (R299)? -/
def Core.bankDue (k : Core) (bank : Nat) : Bool := k.due.any (fun d => decide (bankOf d.1 = bank) && decide (d.2 ≤ k.clk + 31))

end Sys2Proof.Machine
end

