-- ==== Sys2Proof/Machine/Fp.lean ====
section
/-!
DEFINITION. The device's arithmetic on FP32 and BF16 values (03_narrow_formats.md R78 to R82, 04_accumulators.md R122,
05_attention_and_drawers.md R132, 08_instruction_reference.md R248, R249, R252). A value is decoded to an exact dyadic number, the
operation is done exactly (or, for the transcendental functions, to several hundred bits), and the result is rounded once,
to nearest with ties to even, with an unbounded exponent, and then flushed below 2^-126 (R81).
-/
namespace Sys2Proof.Machine.Fp

/-- A decoded value: a NaN, an infinity, or the exact number (-1)^neg x m x 2^e (m = 0 is a zero of its sign). -/
inductive FNum where
  | nan
  | inf (neg : Bool)
  | fin (neg : Bool) (m : Nat) (e : Int)
deriving DecidableEq, Repr

/-- The quiet NaN, the one NaN the device produces (R81, R122). -/
def qnan : Nat := 0x7FC00000

/-- The FP32 value 1. -/
def one : Nat := 0x3F800000

/-- The FP32 infinity of a sign. -/
def infOf (neg : Bool) : Nat := if neg then 0xFF800000 else 0x7F800000

/-- The FP32 zero of a sign. -/
def zeroOf (neg : Bool) : Nat := if neg then 0x80000000 else 0

/-- An FP32 word decoded; a subnormal input counts as a zero of its sign (R81). -/
def dec (w : Nat) : FNum :=
  let neg := w / 2 ^ 31 % 2 == 1
  let ex : Nat := w / 2 ^ 23 % 256
  let fr : Nat := w % 2 ^ 23
  if ex = 255 then (if fr = 0 then .inf neg else .nan)
  else if ex = 0 then .fin neg 0 0
  else .fin neg (2 ^ 23 + fr) ((ex : Int) - 150)

/-- `m x 2^e` rounded to `p` significant bits, to nearest, ties to even; `sticky` says that the true value lies a little above. -/
def roundSig (p m : Nat) (e : Int) (sticky : Bool) : Nat × Int :=
  let l := Nat.log2 m + 1
  if l ≤ p then (m, e)
  else
    let sh := l - p
    let q := m / 2 ^ sh
    let r := m % 2 ^ sh
    let half := 2 ^ (sh - 1)
    let up := decide (half < r) || (r == half && (sticky || q % 2 == 1))
    (if up then q + 1 else q, e + (sh : Int))

/-- The bits of `(-1)^neg x m x 2^e` in a format of 8 exponent bits and `p` significant bits (24: FP32, 8: BF16): rounded, flushed
below 2^-126, an infinity beyond the largest finite value (R81). -/
def pack (p : Nat) (neg : Bool) (m : Nat) (e : Int) (sticky : Bool) : Nat :=
  let sg := if neg then 2 ^ (p + 7) else 0
  if m = 0 then sg
  else
    let (q, e') := roundSig p m e sticky
    let l := Nat.log2 q
    let ex : Int := (l : Int) + e'
    if ex < -126 then sg
    else if 127 < ex then sg + 255 * 2 ^ (p - 1)
    else
      let mant := if l ≤ p - 1 then q * 2 ^ (p - 1 - l) else q / 2 ^ (l - (p - 1))
      sg + (ex + 127).toNat * 2 ^ (p - 1) + (mant - 2 ^ (p - 1))

/-- A number as an FP32 word. -/
def enc : FNum → Nat
  | .nan => qnan
  | .inf neg => infOf neg
  | .fin neg m e => pack 24 neg m e false

/-- A number as a BF16 half word; every NaN becomes 0x7FC0 (R81). -/
def enc16 : FNum → Nat
  | .nan => 0x7FC0
  | .inf neg => if neg then 0xFF80 else 0x7F80
  | .fin neg m e => pack 8 neg m e false

/-- BF16 widened exactly to FP32. -/
def widen (h : Nat) : Nat := enc (dec (h * 65536))

/-- FP32 rounded once to BF16. -/
def narrow (w : Nat) : Nat := enc16 (dec w)

/-- A signed integer times a power of two. -/
def ofInt (v : Int) (e : Int) : FNum := .fin (decide (v < 0)) v.natAbs e

/-- The signed integer mantissa of a finite number at a smaller exponent `e0`. -/
def align (neg : Bool) (m : Nat) (e e0 : Int) : Int :=
  let a := m * 2 ^ (e - e0).toNat
  if neg then -(a : Int) else (a : Int)

/-- The exact sum (R122): NaN of opposite infinities, +0 of opposite equal values, -0 only of two negative zeros. -/
def addN : FNum → FNum → FNum
  | .nan, _ => .nan
  | _, .nan => .nan
  | .inf a, .inf b => if a = b then .inf a else .nan
  | .inf a, _ => .inf a
  | _, .inf b => .inf b
  | .fin na ma ea, .fin nb mb eb =>
    if ma = 0 ∧ mb = 0 then .fin (na && nb) 0 0
    else
      let e0 := min ea eb
      let v := align na ma ea e0 + align nb mb eb e0
      if v = 0 then .fin false 0 0 else ofInt v e0

/-- The exact product. -/
def mulN : FNum → FNum → FNum
  | .nan, _ => .nan
  | _, .nan => .nan
  | .inf a, .inf b => .inf (a != b)
  | .inf a, .fin b m _ => if m = 0 then .nan else .inf (a != b)
  | .fin a m _, .inf b => if m = 0 then .nan else .inf (a != b)
  | .fin a m e, .fin b n f => .fin (a != b) (m * n) (e + f)

/-- The number with its sign changed. -/
def negN : FNum → FNum
  | .nan => .nan
  | .inf a => .inf (!a)
  | .fin a m e => .fin (!a) m e

/-- FP32 addition (R122). -/
def add (a b : Nat) : Nat := enc (addN (dec a) (dec b))

/-- FP32 subtraction. -/
def sub (a b : Nat) : Nat := enc (addN (dec a) (negN (dec b)))

/-- FP32 multiplication. -/
def mul (a b : Nat) : Nat := enc (mulN (dec a) (dec b))

/-- a x b + c rounded once (R248). -/
def fma (a b c : Nat) : Nat := enc (addN (mulN (dec a) (dec b)) (dec c))

/-- Is the word a NaN? -/
def isNan (w : Nat) : Bool := dec w == .nan

/-- Is the word an infinity? -/
def isInf (w : Nat) : Bool :=
  match dec w with
  | .inf _ => true
  | _ => false

/-- Is the word neither NaN nor infinity? -/
def isFinite (w : Nat) : Bool :=
  match dec w with
  | .fin _ _ _ => true
  | _ => false

/-- `a < b` on numbers without a NaN; zeros are equal. -/
def ltN : FNum → FNum → Bool
  | .nan, _ => false
  | _, .nan => false
  | .inf a, .inf b => a && !b
  | .inf a, _ => a
  | _, .inf b => !b
  | .fin na ma ea, .fin nb mb eb =>
    let e0 := min ea eb
    decide (align na ma ea e0 < align nb mb eb e0)

/-- `a < b` on FP32 words. -/
def lt (a b : Nat) : Bool := ltN (dec a) (dec b)

/-- R248 item 7: the maximum; a NaN operand gives the quiet NaN, max(+0, -0) is +0. -/
def fmax (a b : Nat) : Nat :=
  if isNan a || isNan b then qnan
  else if lt a b then enc (dec b)
  else if lt b a then enc (dec a)
  else if a / 2 ^ 31 % 2 = 1 then enc (dec b) else enc (dec a)

/-- R248 item 7: the minimum; a NaN operand gives the quiet NaN, min(+0, -0) is -0. -/
def fmin (a b : Nat) : Nat :=
  if isNan a || isNan b then qnan
  else if lt a b then enc (dec a)
  else if lt b a then enc (dec b)
  else if a / 2 ^ 31 % 2 = 1 then enc (dec a) else enc (dec b)

/-- FP32 division (R249 item 2). -/
def div (a b : Nat) : Nat :=
  match dec a, dec b with
  | .nan, _ => qnan
  | _, .nan => qnan
  | .inf _, .inf _ => qnan
  | .inf x, .fin y _ _ => infOf (x != y)
  | .fin x _ _, .inf y => zeroOf (x != y)
  | .fin x m e, .fin y n f =>
    if n = 0 then (if m = 0 then qnan else infOf (x != y))
    else if m = 0 then zeroOf (x != y)
    else
      let q := m * 2 ^ 64 / n
      pack 24 (x != y) q (e - f - 64) (m * 2 ^ 64 % n != 0)

/-- The reciprocal (R249 item 2). -/
def recip (a : Nat) : Nat := div one a

/-- One bit of the integer square root: `n` bits are still to be tried. -/
def isqrtGo (x : Nat) : Nat → Nat → Nat
  | 0, r => r
  | n + 1, r =>
    let t := r + 2 ^ n
    isqrtGo x n (if t * t ≤ x then t else r)

/-- The integer square root of a number below 2^400. -/
def isqrt (x : Nat) : Nat := isqrtGo x 200 0

/-- The reciprocal square root (R249 item 3). -/
def rsqrt (a : Nat) : Nat :=
  match dec a with
  | .nan => qnan
  | .inf neg => if neg then qnan else 0
  | .fin neg m e =>
    if m = 0 then infOf neg
    else if neg then qnan
    else
      let (m, e) := if e % 2 = 0 then (m, e) else (2 * m, e - 1)
      let r := isqrt (2 ^ 300 / m)
      pack 24 false r (-150 - e / 2) (r * r * m != 2 ^ 300)

/-- ln 2 x 2^400, rounded down. -/
def ln2Fix : Nat := 0xb17217f7d1cf79abc9e3b39803f2f6af40f343267298b62d8a0d175b8baafa2be7b876206debac98559552fb4afa1b10ed2e

/-- pi / 2 x 2^800, rounded down. -/
def halfPiFix : Nat := 0x1921fb54442d18469898cc51701b839a252049c1114cf98e804177d4c76273644a29410f31c6809bbdf2a33679a748636605614dbe4be286e9fc26adadaa3848bc90b6aecc4bcfd8de89885d34c6fdad617feb96de80d6fdbdc70d7f6b5133f4b5d3e4822

/-- The sum of the Taylor series of e^r for r = `r` / 2^400, over `n` terms from the last. -/
def expSeries (r : Nat) : Nat → Nat → Nat
  | 0, acc => acc
  | n + 1, acc => expSeries r n (2 ^ 400 + acc * r / 2 ^ 400 / (n + 1))

/-- e^x for x = `x` / 2^400 as a mantissa (400 fraction bits) and a power of two. -/
def expFix (x : Int) : Nat × Int :=
  let k := x / (ln2Fix : Int)
  let r := (x - k * (ln2Fix : Int)).toNat
  (expSeries r 100 (2 ^ 400), k)

/-- A finite number with 400 fraction bits; exact for every FP32 number. -/
def fix400 (neg : Bool) (m : Nat) (e : Int) : Int := align neg m e (-400)

/-- `expf` (R132). -/
def exp (a : Nat) : Nat :=
  match dec a with
  | .nan => qnan
  | .inf neg => if neg then 0 else infOf false
  | .fin neg m e =>
    if m = 0 then one
    else
      let x := fix400 neg m e
      if 100 * 2 ^ 400 < x then infOf false
      else if x < -(100 * 2 ^ 400) then 0
      else
        let (v, k) := expFix x
        pack 24 false v (k - 400) true

/-- 1 / (1 + e^-a) with 400 fraction bits, for |a| at most 200: e^-|a| = t, 1 / (1 + t) or t / (1 + t). -/
def sigmoidFix (neg : Bool) (m : Nat) (e : Int) : Nat :=
  let (v, k) := expFix (fix400 true m e)
  let t := if 0 ≤ k then v * 2 ^ k.toNat else v / 2 ^ (-k).toNat
  if neg then t * 2 ^ 400 / (2 ^ 400 + t) else 2 ^ 800 / (2 ^ 400 + t)

/-- Is |m x 2^e| above 200? -/
def big (m : Nat) (e : Int) : Bool := decide (200 * 2 ^ 400 < fix400 false m e)

/-- Sigmoid (R249 item 4). -/
def sigmoid (a : Nat) : Nat :=
  match dec a with
  | .nan => qnan
  | .inf neg => if neg then 0 else one
  | .fin neg m e =>
    if m = 0 then 0x3F000000
    else if big m e then (if neg then 0 else one)
    else pack 24 false (sigmoidFix neg m e) (-400) true

/-- SiLU (R249 item 4). -/
def silu (a : Nat) : Nat :=
  match dec a with
  | .nan => qnan
  | .inf neg => if neg then zeroOf true else infOf false
  | .fin neg m e =>
    if m = 0 then zeroOf neg
    else if big m e then (if neg then zeroOf true else enc (dec a))
    else pack 24 neg (m * sigmoidFix neg m e) (e - 400) true

/-- The alternating Taylor series 1 - r^2/((d+1)(d+2)) + ... for r^2 = `r2` / 2^800, over `n` terms from the last; `d` is 0 for the
cosine and 1 for the sine. -/
def trigSeries (r2 d : Nat) : Nat → Nat → Nat
  | 0, acc => acc
  | n + 1, acc => trigSeries r2 d n (2 ^ 800 - acc * r2 / 2 ^ 800 / ((2 * n + d + 1) * (2 * n + d + 2)))

/-- The quadrant and the remainder (800 fraction bits) of |m x 2^e| after multiples of pi / 2. -/
def reduce (m : Nat) (e : Int) : Nat × Nat :=
  let x := m * 2 ^ (e + 800).toNat
  (x / halfPiFix, x % halfPiFix)

/-- sin r for r = `r` / 2^800 below pi / 2. -/
def sinFix (r : Nat) : Nat := trigSeries (r * r / 2 ^ 800) 1 120 (2 ^ 800) * r / 2 ^ 800

/-- cos r for r = `r` / 2^800 below pi / 2. -/
def cosFix (r : Nat) : Nat := trigSeries (r * r / 2 ^ 800) 0 120 (2 ^ 800)

/-- `vsin` (R252): sine, correctly rounded and flushed; the quiet NaN for an infinity or a NaN. -/
def sin (a : Nat) : Nat :=
  match dec a with
  | .nan => qnan
  | .inf _ => qnan
  | .fin neg m e =>
    if m = 0 then zeroOf neg
    else
      let (k, r) := reduce m e
      let v := if k % 2 = 0 then sinFix r else cosFix r
      pack 24 (neg != decide (2 ≤ k % 4)) v (-800) true

/-- `vcos` (R252): cosine, correctly rounded and flushed; the quiet NaN for an infinity or a NaN. -/
def cos (a : Nat) : Nat :=
  match dec a with
  | .nan => qnan
  | .inf _ => qnan
  | .fin _ m e =>
    if m = 0 then one
    else
      let (k, r) := reduce m e
      let v := if k % 2 = 0 then cosFix r else sinFix r
      pack 24 (k % 4 == 1 || k % 4 == 2) v (-800) true

/-- `v` divided by 2^k to nearest, ties to even, on a magnitude. -/
def rneShift (v k : Nat) : Nat :=
  let q := v / 2 ^ k
  let r := v % 2 ^ k
  if k = 0 then q
  else if 2 ^ (k - 1) < r || (r == 2 ^ (k - 1) && q % 2 == 1) then q + 1 else q

/-- A finite number divided by 2^s, rounded to an integer to nearest, ties to even. -/
def roundInt (neg : Bool) (m : Nat) (e s : Int) : Int :=
  let d := e - s
  let q : Nat := if 0 ≤ d then m * 2 ^ d.toNat else rneShift m (-d).toNat
  if neg then -(q : Int) else (q : Int)

/-- The unbiased exponent floor(log2 |m x 2^e|) of a non-zero number. -/
def expOf (m : Nat) (e : Int) : Int := (Nat.log2 m : Int) + e

/-- m x 2^e < n x 2^f on magnitudes. -/
def absLt (m : Nat) (e : Int) (n : Nat) (f : Int) : Bool :=
  let e0 := min e f
  decide (m * 2 ^ (e - e0).toNat < n * 2 ^ (f - e0).toNat)

/-- The exact sum of a list of numbers. -/
def sumN (l : List FNum) : FNum := l.foldl addN (.fin false 0 0)

/-- The FP32 value of a natural number (R252: fp32(pos)). -/
def ofNat (n : Nat) : Nat := pack 24 false n 0 false

end Sys2Proof.Machine.Fp
end

