-- ==== Sys2Proof/Machine/Formats.lean ====
section
/-!
DEFINITION. The narrow formats (03_narrow_formats.md): element codes and scale codes decoded (R78 to R83), the placing of a burst's
elements (R89 to R92), and the quantiser on one block of 64 values (R94 to R101).
-/
namespace Sys2Proof.Machine
open Fp

/-- Element width in bits of a format code (Table 3-3). -/
def elemBits (fmt : Nat) : Nat :=
  if fmt = 4 ∨ fmt = 10 then 4 else if fmt = 9 then 2 else if fmt = 8 then 1 else 8

/-- A two's complement code of `w` bits. -/
def signed (w v : Nat) : Int := if v < 2 ^ (w - 1) then (v : Int) else (v : Int) - 2 ^ w

/-- An FP8 code decoded (R82): the value, and whether it is a NaN or an infinity (which decodes as zero). -/
def decFp8 (fmt v : Nat) : FNum × Bool :=
  let neg := v / 128 % 2 == 1
  if fmt = 6 then
    let ex := v / 8 % 16
    let fr := v % 8
    if ex = 15 ∧ fr = 7 then (.fin false 0 0, true)
    else if ex = 0 then (.fin neg fr (-9), false)
    else (.fin neg (8 + fr) ((ex : Int) - 10), false)
  else
    let ex := v / 4 % 32
    let fr := v % 4
    if ex = 31 then (.fin false 0 0, true)
    else if ex = 0 then (.fin neg fr (-16), false)
    else (.fin neg (4 + fr) ((ex : Int) - 17), false)

/-- A scaled element (R79, R82, R83): its exact value, and whether it raises poison cause 2. A zero or NaN block decodes as zero. -/
def decElem (fmt scale v : Nat) : FNum × Bool :=
  if scale = 0 ∨ scale = 255 then (.fin false 0 0, false)
  else if fmt = 6 ∨ fmt = 7 then
    match decFp8 fmt v with
    | (.fin neg m e, bad) =>
      let e' := e + (scale : Int) - 127
      if m ≠ 0 ∧ expOf m e' < -126 then (.fin neg 0 0, bad) else (.fin neg m e', bad)
    | (x, bad) => (x, bad)
  else
    let w := elemBits fmt
    (ofInt (signed w (v % 2 ^ w)) ((scale : Int) - (if w = 8 then 133 else 129)), false)

/-- Element `k` of a payload stream (R91). -/
def payloadElem (w : Nat) (payload : Bytes) (k : Nat) : Nat :=
  let b := w * k
  ((payload.getD (b / 8) 0).toNat / 2 ^ (b % 8)) % 2 ^ w

/-- The scale byte of block `j` of a burst given whole (R89); a block above 63 takes the byte that follows the header line (log entry 105). -/
def burstScale (burst : Bytes) (j : Nat) : Nat := (burst.getD j 0).toNat

/-- The FP32 value of element `e` of block `j` of a burst, and its poison cause: 1 a NaN block, 2 an FP8 NaN or infinity, 0 none. -/
def burstElem (fmt : Nat) (burst : Bytes) (j e : Nat) : FNum × Nat :=
  let sc := burstScale burst j
  let (v, bad) := decElem fmt sc (payloadElem (elemBits fmt) (burst.drop 64) (64 * j + e))
  (v, if sc = 255 then 1 else if bad then 2 else 0)

/-- Lines of a burst of `n` blocks (R89). -/
def burstLines (fmt n : Nat) : Nat := if n = 0 then 0 else 1 + (n * elemBits fmt + 7) / 8

/-! ## The quantiser (R94 to R101) -/

/-- The largest magnitude of an integer format. -/
def fmtMax (fmt : Nat) : Nat := if fmt = 4 then 7 else 127

/-- The exponent of the scale unit u(c) (R79). -/
def unitExp (fmt c : Nat) : Int := (c : Int) - (if fmt = 4 then 129 else 133)

/-- A quantised block: scale code, 64 element codes, 64 new errors in BF16, clamped elements, poison. -/
structure QBlock where
  scale : Nat
  codes : List Nat
  errs : List Nat
  clamps : Nat
  poison : Bool
deriving DecidableEq, Repr

/-- The largest magnitude of a list of finite numbers. -/
def amaxOf : List FNum → Nat × Int
  | [] => (0, 0)
  | .fin _ m e :: l =>
    let (n, f) := amaxOf l
    if n = 0 then (m, e) else if absLt n f m e then (m, e) else (n, f)
  | _ :: l => amaxOf l

/-- One element of an integer format: y / u(c) rounded (R96, R98). -/
def qRound (fmt c : Nat) (y : FNum) : Int :=
  match y with
  | .fin neg m e => roundInt neg m e (unitExp fmt c)
  | _ => 0

/-- Clamped to -M to M. -/
def clampM (fmt : Nat) (v : Int) : Int := max (-(fmtMax fmt : Int)) (min (fmtMax fmt : Int) v)

/-- A number clamped to +-8u(c) (R99). -/
def clampErr (fmt c : Nat) (x : FNum) : FNum :=
  match x with
  | .fin neg m e => if absLt 8 (unitExp fmt c) m e then .fin neg 8 (unitExp fmt c) else .fin neg m e
  | y => y

/-- The new error e' = y - q u(c), rounded to BF16, clamped first where `cl` (R99). -/
def newErr (fmt c : Nat) (cl : Bool) (y : FNum) (q : Int) : Nat :=
  let d := addN y (negN (ofInt q (unitExp fmt c)))
  narrow (enc (if cl then clampErr fmt c d else d))

/-- A block stored with code `c` of an integer format; `cl` says that elements may be clamped (static mode, R96's exception). -/
def quantInt (fmt c : Nat) (cl : Bool) (ys : List FNum) : QBlock :=
  let rs := ys.map (qRound fmt c)
  let qs := rs.map (clampM fmt)
  { scale := c
    codes := qs.map (fun q => (q % 2 ^ elemBits fmt).toNat)
    errs := (ys.zip qs).map (fun p => newErr fmt c cl p.1 p.2)
    clamps := if cl then (rs.filter (fun r => decide (fmtMax fmt < r.natAbs))).length else 0
    poison := false }

/-- A zero block (R100): the whole of y goes into the error. -/
def zeroBlock (ys : List FNum) : QBlock :=
  { scale := 0, codes := ys.map (fun _ => 0), errs := ys.map enc16, clamps := 0, poison := false }

/-- A NaN block (R101). -/
def nanBlock : QBlock :=
  { scale := 255, codes := List.replicate 64 0, errs := List.replicate 64 0, clamps := 0, poison := true }

/-- A value y / X as an FP8 code, to nearest, ties to even, at most the largest magnitude (R97). -/
def encFp8 (fmt c : Nat) (y : FNum) : Nat :=
  match y with
  | .fin neg m e =>
    let sg := if neg then 128 else 0
    if m = 0 then sg
    else
      let e' := e - ((c : Int) - 127)
      let emin : Int := if fmt = 6 then -6 else -14
      let fb : Nat := if fmt = 6 then 3 else 2
      let ex := max (expOf m e') emin
      let q := (roundInt false m e' (ex - (fb : Int))).toNat
      let code := (ex - emin).toNat * 2 ^ fb + q
      sg + min code (if fmt = 6 then 0x7E else 0x7B)
  | _ => 0

/-- The quantiser on one block: inputs x and stored errors e as FP32 words (`ef` 0: no error is added), static code `sc` or dynamic. -/
def quantBlock (fmt : Nat) (static : Option Nat) (ef : Bool) (xs es : List Nat) : QBlock :=
  let ysW := if ef then (xs.zip es).map (fun p => add p.1 p.2) else xs
  if xs.any (fun x => !isFinite x) || (ef && es.any (fun x => !isFinite x)) || ysW.any (fun y => !isFinite y) then nanBlock
  else
    let ys := ysW.map dec
    let (m, e) := amaxOf ys
    match static with
    | some c =>
      let b := quantInt fmt c true ys
      if ys.all (fun y => qRound fmt c y == 0) then zeroBlock ys else b
    | none =>
      if m = 0 then zeroBlock ys
      else
        let k := expOf m e
        if fmt = 6 ∨ fmt = 7 then
          let c := (max 1 (min 254 (k - (if fmt = 6 then 8 else 15) + 127))).toNat
          { scale := c, codes := ys.map (encFp8 fmt c), errs := ys.map (fun _ => 0), clamps := 0, poison := false }
        else
          let c := (k + 127).toNat
          let c' := if (fmtMax fmt : Int) < roundInt false m e (unitExp fmt c) then c + 1 else c
          if 254 < c' then quantInt fmt 254 true ys else quantInt fmt c' false ys

end Sys2Proof.Machine
end

