-- ==== Sys2Proof/Machine/Master.lean ====
section
/-!
DEFINITION. Array rows and master copies: check cells (02_exact_count_arrays.md R38, R39), the array-image layout
(11_weight_images_and_partitions.md R319), rows and scale stores read out of a master copy, the isle controllers' state
(19_firmware_and_transactions.md Table 19-4), spare arrays (R71 to R73).
-/
namespace Sys2Proof.Machine

/-- The number of 1 bits among the `n` lowest of a number. -/
def popcount (v : Nat) : Nat → Nat
  | 0 => 0
  | n + 1 => v / 2 ^ n % 2 + popcount v n

/-- A row of 1,024 data bits with the check cells of its 16 groups (R38, R39): 1,056 bits in logical column order. -/
def withChecks (d : Nat) : Nat :=
  (List.range 16).foldl (fun acc g =>
    let x := d / 2 ^ (64 * g) % 2 ^ 64
    acc + (x + popcount x 64 % 4 * 2 ^ 64) * 2 ^ (66 * g)) 0

/-- The logical column of data column `d` (R38). -/
def dataCol (d : Nat) : Nat := d / 64 * 66 + d % 64

/-- Bursts of a window, payload lines of a burst, and element bits, by weight format code 0 W1, 1 W2, 2 W4 (R92). -/
def wBursts (fmt : Nat) : Nat := if fmt = 0 then 16 else if fmt = 1 then 8 else 4
def wPayload (fmt : Nat) : Nat := 128 / wBursts fmt
def wBits (fmt : Nat) : Nat := if fmt = 0 then 1 else if fmt = 1 then 2 else 4

/-- Lines of a window and bytes of an array image (R319 item 2). -/
def winLines (fmt : Nat) : Nat := wBursts fmt * (wPayload fmt + 1)
def imageBytes (fmt : Nat) : Nat := 16 * 64 * winLines fmt

/-- The format of logical array `n` in AFMT (Table 11-2): none where unused. -/
def afmtOf (afmt n : Nat) : Option Nat :=
  let v := afmt / 2 ^ (2 * n) % 4
  if v = 0 then none else some (v - 1)

/-- Where the image of logical array `n` begins in its core's data (R319 item 1). -/
def arrOff (afmt n : Nat) : Nat :=
  (List.range n).foldl (fun acc k => match afmtOf afmt k with | some f => acc + imageBytes f | none => acc) 0

/-- The offset of line `l` of burst `t` of window `w` within an array image. -/
def burstLine (fmt w t l : Nat) : Nat := 64 * (w * winLines fmt + t * (wPayload fmt + 1) + l)

/-- Where a slot of a core begins in its cabinet (R313). -/
def CoreRec.slotBase (r : CoreRec) (slot : Nat) : Nat := r.masterBase + (if slot = 1 then r.masterLen else 0)

/-- The 1,024 data bits of row `r` of window `w` of an array image at cabinet offset `img` (R92 items 2 and 3). -/
def State.masterRow (s : State) (c : CoreId) (img fmt w r : Nat) : Nat :=
  let b := wBits fmt
  let line := 64 * b * r / 512
  let sh := 64 * b * r % 512
  (List.range (wBursts fmt)).foldl (fun acc t =>
    let v := leNat (s.rdLine c spCabinet (img + burstLine fmt w t (1 + line)))
    acc + v / 2 ^ sh % 2 ^ (64 * b) * 2 ^ (64 * b * t)) 0

/-- The scale code of output `o` of window `w` of an array image (R319 item 3). -/
def State.masterScale (s : State) (c : CoreId) (img fmt w o : Nat) : Nat :=
  ((s.rdLine c spCabinet (img + burstLine fmt w (o / 64) 0)).getD (o % 64) 0).toNat

/-- Outputs of an array (Table 2-1). -/
def outputs (fmt : Nat) : Nat := 64 * wBursts fmt

/-- Rows and scale store of logical array `n` as the slot's image gives them; none where the image does not use the array. -/
def State.arrayImage (s : State) (c : CoreId) (slot afmt n : Nat) : Option (FMap Nat × FMap Nat) :=
  match afmtOf afmt n with
  | none => none
  | some f =>
    let img := (s.coreRec c).slotBase slot + arrOff afmt n
    let rows := (List.range 1024).foldl (fun m r => fset 0 m r (withChecks (s.masterRow c img f (r / 64) (r % 64)))) []
    let scales := (List.range 16).foldl (fun m w =>
      (List.range (outputs f)).foldl (fun m o => fset 0 m (w * 1024 + o) (s.masterScale c img f w o)) m) []
    some (rows, scales)

/-- The live slot of a core's partition, if it has a live version. -/
def State.liveOf (s : State) (c : CoreId) : Option Nat :=
  let q := s.partAt c
  if q.liveValid then some q.liveSlot else none

/-- Row `r` (0 to 1,023) of logical array `n` as the master copy in use gives it, check cells included (R55, R63). -/
def State.liveRow (s : State) (c : CoreId) (n r : Nat) : Option Nat :=
  match s.liveOf c with
  | none => none
  | some slot =>
    let rec_ := s.coreRec c
    match afmtOf rec_.afmt n with
    | none => none
    | some f => some (withChecks (s.masterRow c (rec_.slotBase slot + arrOff rec_.afmt n) f (r / 64) (r % 64)))

/-! ## Processors and sites -/

/-- Is an isle's controller running (Table 19-4)? -/
def State.icUp (s : State) (isle : Nat) : Bool := s.fld (rIsle isle 0x930) 1 0 == 0

/-- Is the serving scheduler running? -/
def State.schUp (s : State) : Bool := s.fld (rSys 0x52) 1 0 == 0

/-- The logical isle a physical isle serves. -/
def State.logicalIsle (s : State) (isle : Nat) : Option Nat := (List.range s.gridIsles).find? (fun l => s.physIsle l == isle)

/-- The core a physical site carries, if any. -/
def State.coreAt (s : State) (isle site : Nat) : Option CoreId :=
  let cores := (List.range 144).map (fun i => (i / 12) * 16 + i % 12)
  match s.logicalIsle isle with
  | none => none
  | some l => (cores.map (fun k => l * 256 + k)).find? (fun c => s.siteOf c == site)

/-- The spare array of an engine (R40). -/
def spareOf (logical : Nat) : Nat := if logical < 24 then 48 else 49

/-- Does a spare array serve in another's place (R71)? -/
def State.spareTaken (s : State) (k : Nat) : Bool := s.arrMap.any (fun p => decide (p.1 / 64 = k / 64) && decide (p.2 = k % 64 + 1))

/-- The state code of a physical array (Table 2-6): a spare that nothing uses is ready once the self-test has passed. -/
def State.arrState (s : State) (k : Nat) : Nat :=
  let a := s.arr k
  if 48 ≤ k % 64 ∧ a.state = 5 ∧ s.isMapped ∧ s.spareTaken k = false then 1 else a.state

/-- An event of an array of a site (R77): A the physical array, B the column. -/
def State.cimEvent (s : State) (isle site bit cls arr col : Nat) : State :=
  let part := match s.coreAt isle site with
    | some c => s.partCode c
    | none => 15
  s.isleEvent isle 0x810 bit cls part site arr col 0

/-- An array must be retired (R71, R73, R74): with automatic retirement its engine's spare starts to fill from the master copy, or the site
has none left (`SPARE_ARRAY_OUT`, and the site becomes a candidate for core sparing). `k` is the array's key. -/
def State.retireArray (s : State) (k : Nat) : State :=
  let a := s.arr k
  let site := k / 64
  let isle := site / 169
  if s.fld (rIsle isle 0x802) 2 2 = 0 ∨ a.logical = 63 then s
  else
    let sp := site * 64 + spareOf a.logical
    let b := s.arr sp
    if s.arrState sp = 1 then s.setArr sp { b with state := 2, replaces := some (k % 64) }
    else if b.state = 2 ∧ b.replaces = some (k % 64) then s
    else
      let s := s.cimEvent isle (site % 169) 5 1 (k % 64) 0
      s.candidate isle (site % 169)

end Sys2Proof.Machine
end

