-- ==== Sys2Proof/Machine/Cim.lean ====
section
/-!
DEFINITION. The CIM slot and the steps of its arrays (02_exact_count_arrays.md; 04_accumulators.md; 08_instruction_reference.md R236 to R240).
A conversion that the command does not list reads the true count of the stored cells; the listed ones read the code given.
-/
namespace Sys2Proof.Machine

/-! ## Counts, the residue check and window partials -/

/-- The scale code and the 64 signed activations of block `j` of a burst, zeros for a zero or NaN block (R48). -/
def actBlock (burst : Bytes) (j : Nat) : Nat × List Int :=
  let sc := (burst.getD j 0).toNat
  (sc, if sc = 0 ∨ sc = 255 then List.replicate 64 0 else (piece burst (1 + j)).map (fun b => signed 8 b.toNat))

/-- Bit `b` of an A8 element. -/
def actBit (x : Int) (b : Nat) : Nat := (x % 256).toNat / 2 ^ b % 2

/-- The true count of a logical column in a step (R42). -/
def trueCount (a : Arr) (xs : List Int) (w b col : Nat) : Nat :=
  ((List.range 64).map (fun r => actBit (xs.getD r 0) b * (fget 0 a.rows (64 * w + r) / 2 ^ col % 2))).sum

/-- The conversions listed for one step and attempt. -/
def convsOf (obs : List Conv) (slot w b att : Nat) : List Conv :=
  obs.filter (fun v => decide (v.slot = slot) && decide (v.win = w) && decide (v.bit = b) && decide (v.att = att))

/-- What a column's miscount adds to its group's D - K (R50). -/
def residueWeight (col : Nat) : Int := if col % 66 = 64 then -1 else if col % 66 = 65 then -2 else 1

/-- R50: the step passes when every group's counts agree modulo 4 and no code is above 64. The true counts always agree, because
every row carries its residue (R39). -/
def stepPasses (a : Arr) (xs : List Int) (w b : Nat) (cs : List Conv) : Bool :=
  cs.all (fun v => decide (v.code ≤ 64)) &&
  (List.range 16).all (fun g =>
    ((cs.filter (fun v => decide (v.col / 66 = g))).map
      (fun v => residueWeight v.col * ((v.code : Int) - (trueCount a xs w b v.col : Int)))).sum % 4 == 0)

/-- The sign-weighted value of a bit-plane (R46). -/
def planeWeight (b : Nat) : Int := if b = 7 then -128 else 2 ^ b

/-- q(d) of a window (R46): exact from the cells, plus what accepted miscounts add. -/
def qOf (a : Arr) (xs : List Int) (w : Nat) (acc : List Conv) (d : Nat) : Int :=
  let col := dataCol d
  let exact := ((List.range 64).map (fun r => if fget 0 a.rows (64 * w + r) / 2 ^ col % 2 = 1 then xs.getD r 0 else 0)).sum
  ((acc.filter (fun v => decide (v.win = w) && decide (v.col = col))).map
    (fun v => planeWeight v.bit * ((v.code : Int) - (trueCount a xs w v.bit col : Int)))).sum + exact

/-- The window partials of an output (Table 2-2): P, or P_lo and P_hi. -/
def partials (fmt : Nat) (q : Nat → Int) (xs : List Int) (o : Nat) : List Int :=
  if fmt = 0 then [2 * q o - xs.sum]
  else if fmt = 1 then [q (2 * o) - 2 * q (2 * o + 1)]
  else [q (4 * o) + 2 * q (4 * o + 1), q (4 * o + 2) - 2 * q (4 * o + 3)]

/-! ## Leaves and the tree (R107 to R112) -/

/-- An FP32 sum with its event: 0 none, 1 an infinity from finite operands, 2 a NaN of opposite infinities (R122). -/
def addEv (a b : Nat) : Nat × Nat :=
  let r := Fp.add a b
  (r, if Fp.isFinite a && Fp.isFinite b && !Fp.isFinite r then 1
      else if Fp.isInf a && Fp.isInf b && Fp.isNan r then 2 else 0)

/-- A node of the tree: its value and the events met below it (bit 0 overflow, bit 1 invalid). -/
abbrev Node := Nat × Nat

/-- Two nodes added. -/
def addNode (x y : Node) : Node :=
  let (r, ev) := addEv x.1 y.1
  (r, x.2 ||| y.2 ||| (if ev = 1 then 1 else if ev = 2 then 2 else 0))

/-- One level of the tree. -/
def pairNodes : List Node → List Node
  | x :: y :: l => addNode x y :: pairNodes l
  | l => l

/-- The leaf of one window of one output (R107 to R110): scale codes `ca` and `cw`, the partials of Table 2-2. -/
def leafOf (ca cw : Nat) (ps : List Int) : Node :=
  if ca = 0 ∨ ca = 255 ∨ cw = 0 ∨ cw = 255 then (0, 0)
  else
    let e : Int := ((ca : Int) - 133) + ((cw : Int) - 127)
    match ps with
    | [p] => (Fp.enc (Fp.ofInt p e), 0)
    | [lo, hi] => addNode (Fp.enc (Fp.ofInt lo e), 0) (Fp.enc (Fp.ofInt hi (e + 2)), 0)
    | _ => (0, 0)

/-- The fixed tree over the 128 leaf positions (R112). -/
def tree128 (leaf : Nat → Node) : Node :=
  let l := (List.range 128).map leaf
  (pairNodes (pairNodes (pairNodes (pairNodes (pairNodes (pairNodes (pairNodes l))))))).getD 0 (0, 0)

/-- Where output `o` goes (Table 4-1): tile row offset and entry. -/
def placeOf (fmt : Nat) (h : Bool) (o : Nat) : Nat × Nat :=
  if fmt = 0 then (o / 512, o % 512) else if fmt = 1 then (0, o) else (0, (if h then 256 else 0) + o)

/-! ## Accumulator memory (R115, R116) -/

/-- Offset of line `i` of a tile row. -/
def accOff (eng t i : Nat) : Nat := eng * 65536 + t * 2048 + 64 * i

/-- A codeword of a tile row written with 16 entries. -/
def State.accPut (s : State) (c : CoreId) (eng t i : Nat) (es : List Nat) : State := s.accWrite c (accOff eng t i) (unwords 4 es)

/-- Overflow and invalid events of one tile row counted (R122). -/
def State.nonfin (s : State) (c : CoreId) (ev : Nat) : State :=
  let r := s.sreg c 0x871
  let s := if ev % 2 = 1 then s.satFld r 15 0 1 else s
  if ev / 2 % 2 = 1 then s.satFld r 31 16 1 else s

/-- Tree results added to one tile row as the last node (R112): `outs` lists entry and node. Only the codewords that hold one of those
entries are read and written (R113, R116). -/
def State.addToRow (s : State) (c : CoreId) (eng t : Nat) (outs : List (Nat × Node)) (errs : List LineErr) : State :=
  let (s, ev) := ((List.range 32).filter (fun i => outs.any (fun p => decide (p.1 / 16 = i)))).foldl (fun (x : State × Nat) i =>
    let (bs, s) := x.1.accRead c errs (accOff eng t i)
    let es := (words 4 bs).zipIdx.map (fun p => match outs.find? (fun o => decide (o.1 = 16 * i + p.2)) with
      | some o => addNode (p.1, 0) o.2
      | none => (p.1, 0))
    (s.accPut c eng t i (es.map Prod.fst), es.foldl (fun ev e => ev ||| e.2) x.2)) (s, 0)
  s.nonfin c ev

/-! ## Items of a product (R56) -/

/-- An item raised in this core cycle, over in `len` cycles if its length is known. -/
def State.raiseItem (s : State) (c : CoreId) (cause : Nat) (len : Option Nat) : State :=
  match s.partOf c with
  | none => s
  | some p => s.updPart p (fun q => { q with items := q.items ++ [{ core := c, cause := cause, up := s.cyc, down := len.map (s.cyc + ·) }] })

/-- The core cycles since the first outstanding item of a core and cause was raised. -/
def State.itemAge (s : State) (c : CoreId) (cause : Nat) : Option Nat :=
  ((s.partAt c).items.find? (fun i => decide (i.core = c) && decide (i.cause = cause) && decide (i.down = none))).map (fun i => s.cyc - i.up)

/-- The first outstanding item of a core and cause ends `d` core cycles from now. -/
def State.completeIn (s : State) (c : CoreId) (cause d : Nat) : State :=
  match s.partOf c with
  | none => s
  | some p => s.updPart p (fun q => { q with items := lowerFirst c cause (s.cyc + d) q.items })

/-! ## The product (R237) -/

/-- The array of a slot of a product. -/
def State.mvmArr (s : State) (c : CoreId) (eng : Nat) (m : Mvm) (slot : Nat) : Arr :=
  s.arr (s.arrKey c (eng * 8 + m.first + slot))

/-- The activations of a slot's window. -/
def Mvm.act (m : Mvm) (slot w : Nat) : Nat × List Int := fget (0, []) m.acts (slot * 16 + w)

/-- The score cycle in which an item of step `k` is declared: the one after its check in the product's clean schedule (R44, R56; log entry 18). -/
def Mvm.declared (m : Mvm) (k : Nat) : Nat := m.final - 16 * m.n + 2 * k

/-- Does a step pass at an attempt with the conversions `obs`? -/
def State.mvmPass (s : State) (c : CoreId) (eng : Nat) (m : Mvm) (obs : List Conv) (slot w b att : Nat) : Bool :=
  stepPasses (s.mvmArr c eng m slot) (m.act slot w).2 w b (convsOf obs slot w b att)

/-- Are the counts of a conversion taken: the check passes, or the window's rewrite met an uncorrectable line in this product, so that
its counts enter as measured (R58 item 2)? -/
def State.mvmTakes (s : State) (c : CoreId) (eng : Nat) (m : Mvm) (obs : List Conv) (slot w b att : Nat) : Bool :=
  m.faulted.contains (slot, w) || s.mvmPass c eng m obs slot w b att

/-- An item of a step of a product to be declared. -/
def State.declareStep (s : State) (c : CoreId) (eng : Nat) (m : Mvm) (k cause : Nat) (len : Option Nat) : State :=
  s.addOps c [{ at_ := m.declared k, port := cimPort eng, act := .item cause len }]

/-- One re-conversion of step `k` counted and declared (R52, R56); `len` is none where it waits for the end of a rewrite (R53, last paragraph). -/
def State.reconvert (s : State) (c : CoreId) (eng : Nat) (m : Mvm) (slot k : Nat) (len : Option Nat) : State :=
  let s := s.updArr (s.arrKey c (eng * 8 + m.first + slot)) (fun a => { a with reconv := a.reconv + 1 })
  s.declareStep c eng m k 0 len

/-- A window rewrite for step `k` counted and declared (R53, R56). -/
def State.beginRewrite (s : State) (c : CoreId) (eng : Nat) (m : Mvm) (slot k : Nat) : State :=
  let s := s.updArr (s.arrKey c (eng * 8 + m.first + slot))
    (fun a => { a with rewrite := Nat.min (a.rewrite + 1) (2 ^ 32 - 1) })
  s.declareStep c eng m k 1 none

/-- Has a slot's engine stopped for a rewrite (R53 item 1)? -/
def Mvm.stopped (m : Mvm) (slot : Nat) : Bool := m.rewrites.any (fun r => decide (r.slot = slot))

/-- The check of one conversion (R50, R52, R53): `x` is its slot, its step and its attempt. In a slot that has stopped, a failed step of the window being rewritten is
converted after the rewrite, one of another window as a re-conversion after that. -/
def State.mvmCheck (s : State) (c : CoreId) (eng : Nat) (m : Mvm) (x : Nat × Nat × Nat) : State × Mvm :=
  let (slot, k, att) := x
  let w := m.w0 + k / 8
  let b := k % 8
  let cs := convsOf m.obs slot w b att
  if s.mvmTakes c eng m m.obs slot w b att then (s, { m with acc := m.acc ++ cs })
  else if m.stopped slot then
    let same (r : Rewrite) := decide (r.slot = slot) && decide (r.win = w)
    let other (r : Rewrite) := decide (r.slot = slot) && decide (r.win ≠ w)
    let s := if m.rewrites.any other then s.reconvert c eng m slot k none else s
    (s, { m with rewrites := m.rewrites.map (fun r =>
      if same r then { r with bitsHeld := r.bitsHeld ++ [b], last := r.last ++ cs }
      else if other r then { r with others := r.others ++ [(w, b)] } else r) })
  else if att = 0 then (s.reconvert c eng m slot k (some 2), { m with redo := m.redo ++ [(slot, k, 1)] })
  else
    (s.beginRewrite c eng m slot k,
     { m with rewrites := m.rewrites ++ [{ slot := slot, win := w, bitsHeld := [b], others := [], last := cs }], row := 0 })

/-- What enters the arrays next: the oldest step that waits for its re-conversion, in every slot in which it does; else the next step in
every slot, unless a slot has stopped (R52, R56: the arrays of a group hold their next step while one re-converts or rewrites). -/
def Mvm.enter (m : Mvm) : List (Nat × Nat × Nat) :=
  match m.redo.filter (fun x => !m.stopped x.1) with
  | x :: l => (x :: l).filter (fun y => decide (y.2.1 = x.2.1))
  | [] => if m.rewrites = [] ∧ m.next < 8 * m.n then (List.range m.g).map (fun slot => (slot, m.next, 0)) else []

/-- Array cycles of a product (R43, R44, R52, R53, Table 2-3): in each the conversions in `flight` are checked while the
next ones enter. It ends when every step is taken, or when a rewrite waits for its lines. -/
def State.mvmRun (s : State) (c : CoreId) (eng : Nat) (m : Mvm) (flight : List (Nat × Nat × Nat)) : Nat → State × Mvm
  | 0 => (s, m)
  | fuel + 1 =>
    let new := m.enter
    if new = [] ∧ flight = [] then (s, m)
    else
      let m := { m with redo := m.redo.filter (fun x => !new.contains x)
                        next := if new.any (fun x => decide (x.2.2 = 0)) then m.next + 1 else m.next }
      let (s, m) := flight.foldl (fun (p : State × Mvm) x => p.1.mvmCheck c eng p.2 x) (s, m)
      s.mvmRun c eng m new fuel

/-- Array cycles that a product takes at most: each slot converts a step twice, and one cycle empties the pipeline. -/
def Mvm.fuel (m : Mvm) : Nat := 8 * m.n * (m.g + 1) + m.redo.length + 2

/-- The node of output `o`: the tree over the leaves of every slot and window (R112). -/
def State.mvmOut (s : State) (c : CoreId) (eng : Nat) (m : Mvm) (o : Nat) : Node :=
  tree128 (fun i =>
    let slot := i / 16
    let w := i % 16
    if slot < m.g ∧ m.w0 ≤ w ∧ w < m.w0 + m.n then
      let a := s.mvmArr c eng m slot
      let (ca, xs) := m.act slot w
      leafOf ca (fget 0 a.scales (w * 1024 + o))
        (partials m.fmt (qOf a xs w (m.acc.filter (fun v => decide (v.slot = slot)))) xs o)
    else (0, 0))

/-- Does the product meet a NaN scale: an activation block or a weight block of its windows (R48)? -/
def State.mvmNanScale (s : State) (c : CoreId) (eng : Nat) (m : Mvm) : Bool :=
  (List.range m.g).any (fun slot => (List.range m.n).any (fun j =>
    let w := m.w0 + j
    let a := s.mvmArr c eng m slot
    (m.act slot w).1 == 255 ||
    (List.range (outputs m.fmt)).any (fun o => fget 0 a.scales (w * 1024 + o) == 255)))

/-- Windows of the product's arrays that a reversion left unwritten (R334): each product that reads one reports a window fault. -/
def State.mvmBadWins (s : State) (c : CoreId) (eng : Nat) (m : Mvm) : List Nat :=
  (List.range m.g).filter (fun slot =>
    (s.mvmArr c eng m slot).badWin.any (fun w => decide (m.w0 ≤ w) && decide (w < m.w0 + m.n)))

/-- A window fault of an array counted and reported (R58). -/
def State.windowFault (s : State) (c : CoreId) (n : Nat) : State :=
  let k := s.arrKey c n
  let s := s.updArr k (fun a => { a with wfault := Nat.min (a.wfault + 1) 0xFFFF })
  s.cimEvent (s.physIsle (cIsle c)) (s.siteOf c) 7 1 (k % 64) 0

/-- The end of a product's steps: the tree results are written with the final write, in score cycle c + 16 N + 5 or, where the steps ended
later, at once (R56, R114); the poison flag is raised for what it met (R85, R112, R113). -/
def State.mvmFinish (s : State) (c : CoreId) (eng : Nat) (m : Mvm) : State :=
  let nodes := (List.range (outputs m.fmt)).map (fun o => (placeOf m.fmt m.h o, s.mvmOut c eng m o))
  let final (d : Nat) : Op :=
    { at_ := Nat.max (s.cycle c) m.final, port := cimPort eng
      act := .add eng (m.t + d) ((nodes.filter (fun p => decide (p.1.1 = d))).map (fun p => (p.1.2, p.2))) m.errs }
  let nan := s.mvmNanScale c eng m
  let bad := s.mvmBadWins c eng m
  let s := s.addOps c (if m.fmt = 0 then [final 0, final 1] else [final 0])
  let s := bad.foldl (fun s slot => s.windowFault c (eng * 8 + m.first + slot)) s
  let causes := m.causes ++ (if nan then [1] else []) ++ (if bad = [] then [] else [5])
  s.raisePoison c m.lane causes

/-- The waiting products of an engine set. -/
def State.setSusp (s : State) (c : CoreId) (eng : Nat) (l : List Mvm) : State :=
  s.updCore c (fun k => { k with susp := fset [] k.susp eng l })

/-- A product run on: finished, or put back to wait for its rewrite. -/
def State.mvmGo (s : State) (c : CoreId) (eng : Nat) (m : Mvm) (rest : List Mvm) : State :=
  let (s, m) := s.mvmRun c eng m [] m.fuel
  if m.rewrites = [] then (s.mvmFinish c eng m).setSusp c eng rest
  else s.setSusp c eng (m :: rest)

/-- The activation bursts of a product read (R237): slot a's at buffer lines `A` + 17a, `N` + 1 lines. -/
def State.mvmActs (s : State) (c : CoreId) (ta : Ta) (eng g w0 n a : Nat) (errs : List LineErr) : FMap (Nat × List Int) × State :=
  (List.range g).foldl (fun (x : FMap (Nat × List Int) × State) k =>
    let (burst, s) := x.2.bufReads c errs ta.src (cimPort eng) (bufCim eng + 64 * (a + 17 * k)) (n + 1)
    ((List.range n).foldl (fun m j => fset (0, []) m (k * 16 + w0 + j) (actBlock burst j)) x.1, s)) ([], s)

/-- `CIM.MVM` (R237). The engine takes its activations in cycle c (log entry 18). -/
def execCimMvm (core : CoreId) (ta : Ta) (eng first g w0 n t : Nat) (h : Bool) (fmt a : Nat) (obs : MvmObs) (s : State) : Res :=
  if 6 ≤ eng ∨ 8 < first + g ∨ 16 < w0 + n ∨ 3 ≤ fmt ∨ (fmt = 0 ∧ 30 < t) ∨ 32 ≤ t ∨ (h = true ∧ fmt ≠ 2) ∨
      (0 < g ∧ 255 < a + 17 * (g - 1) + n) then .fault (.unpredictable .encoding)
  else if g = 0 ∨ n = 0 then .next s
  else if (List.range g).any (fun k => afmtOf (s.coreRec core).afmt (eng * 8 + first + k) != some fmt) then
    .fault (.unpredictable .contract)
  else
    let (acts, s) := s.mvmActs core ta eng g w0 n a obs.errs
    let m : Mvm := { first := first, g := g, w0 := w0, n := n, t := t, h := h, fmt := fmt, a := a, acc := [], obs := obs.convs,
                     next := 0, rewrites := [], row := 0, causes := [], acts := acts, lane := (s.unit core (cimUnit eng)).lane
                     final := s.cycle core + 16 * n + 5, errs := obs.errs }
    let waiting := fget [] (s.core core).susp eng
    let (s, m) := s.mvmRun core eng m [] m.fuel
    .next (if m.rewrites = [] then s.mvmFinish core eng m else s.setSusp core eng (waiting ++ [m]))

/-- The end of the first rewrite of a waiting product: the next one runs, or the product resumes (R53 item 5). -/
def State.rewriteOver (s : State) (c : CoreId) (eng : Nat) (m : Mvm) (rest : List Mvm) : State :=
  let m := { m with rewrites := m.rewrites.drop 1, row := 0 }
  if m.rewrites = [] then s.mvmGo c eng m rest else s.setSusp c eng (m :: rest)

/-- The held steps of other windows are converted again once the rewrite is over (R53, last paragraph): the product takes them before its
next step, as attempt `att`, and their items end with that conversion. -/
def State.heldSteps (s : State) (c : CoreId) (m : Mvm) (r : Rewrite) (att : Nat) : State × Mvm :=
  (r.others.foldl (fun s _ => s.completeIn c 0 2) s,
   { m with redo := m.redo ++ r.others.map (fun wb => (r.slot, 8 * (wb.1 - m.w0) + wb.2, att)) })

/-- Does the fetch of a rewrite wait for a line, a claim of priority 1 (R296): its turn in the pace of R54 has come? -/
def State.fetchWaits (s : State) (c : CoreId) : Bool :=
  (List.range 6).any (fun eng => match fget [] (s.core c).susp eng with
    | m :: _ => !m.rewrites.isEmpty && decide (m.row < 128) && (match s.itemAge c 1 with
      | some age => decide (16 + 4 * m.row ≤ age)
      | none => false)
    | [] => false)

/-- The cabinet offset of the line that the running rewrite of a core takes next (R53, R92). -/
def State.fetchOff (s : State) (c : CoreId) : Option Nat :=
  (List.range 6).findSome? (fun eng => match fget [] (s.core c).susp eng with
    | m :: _ => (match m.rewrites with
      | r :: _ =>
        let n := eng * 8 + m.first + r.slot
        let rec_ := s.coreRec c
        let nb := wBursts m.fmt
        some (rec_.slotBase (s.partAt c).liveSlot + arrOff rec_.afmt n + burstLine m.fmt r.win (m.row % nb) (1 + m.row / nb))
      | [] => none)
    | [] => none)

/-- `MASTER_COPY_FETCH_LINE` (R54, R58): line `k` of the 128 payload lines of the window's master copy arrives, payload line by payload
line over the window's bursts, with the error pattern of its codeword. When the last burst's line of a group of rows has arrived
the rows are written with recomputed check cells. An uncorrectable line ends the rewrite with a window fault: the counts of the steps
held in that window, and of its later steps in this product, enter as measured. -/
def execMasterCopyFetchLine (core : CoreId) (eng k : Nat) (err : BitVec 544) (s : State) : Res :=
  match fget [] (s.core core).susp eng with
  | [] => .next s
  | m :: rest =>
    match m.rewrites with
    | [] => .next s
    | r :: _ =>
      if m.row ≠ k ∨ 128 ≤ k ∨ (s.outstanding core 2 && (s.core core).frozen) ∨ (s.itemAge core 1).getD 0 < 16 then .next s
      else
        let n := eng * 8 + m.first + r.slot
        let rec_ := s.coreRec core
        let q := s.partAt core
        let nb := wBursts m.fmt
        let img := rec_.slotBase q.liveSlot + arrOff rec_.afmt n
        let off := img + burstLine m.fmt r.win (k % nb) (1 + k / nb)
        let s := s.cabCheck core (off / 64) err 1
        if s.isBad core spCabinet off then
          let s := (s.windowFault core n).completeIn core 1 1
          let m := { m with acc := m.acc ++ r.last, causes := m.causes ++ [5]
                            faulted := (r.slot, r.win) :: m.faulted }
          let (s, m) := s.heldSteps core m r 3
          .next (s.rewriteOver core eng m rest)
        else
          let per := 512 / (64 * wBits m.fmt)
          let s :=
            if k % nb = nb - 1 then
              s.updArr (s.arrKey core n) (fun a =>
                { a with rows := (List.range per).foldl (fun rows j =>
                    let row := k / nb * per + j
                    fset 0 rows (64 * r.win + row) (withChecks (s.masterRow core img m.fmt r.win row))) a.rows
                         fillSkip := if a.fill.isSome then a.fillSkip ++ (List.range per).map (fun j => 64 * r.win + k / nb * per + j) else a.fillSkip
                         badWin := if k = 127 then a.badWin.filter (fun w => w != r.win) else a.badWin })
            else s
          .next (s.setSusp core eng ({ m with row := k + 1 } :: rest))

/-- A step converted after the rewrite (R53 item 4): a failure is a hard miscount (R57). -/
def State.afterRewrite (s : State) (c : CoreId) (eng : Nat) (m : Mvm) (slot w b : Nat) (obs : List Conv) : State × Mvm :=
  let cs := convsOf obs slot w b 2
  let m' := { m with acc := m.acc ++ cs }
  if s.mvmPass c eng m obs slot w b 2 then (s, m')
  else
    let k := s.arrKey c (eng * 8 + m.first + slot)
    let s := s.updArr k (fun a => { a with hard := Nat.min (a.hard + 1) 0xFFFF, state := 3 })
    let s := s.cimEvent (s.physIsle (cIsle c)) (s.siteOf c) 3 1 (k % 64) 0
    (s.retireArray k, { m' with causes := m'.causes ++ [4] })

/-- `REWRITE_COMPLETE` (R53 items 4 and 5, R56, R57): the held steps of the window have been converted and the item ends; held steps of other
windows are converted again, and the product resumes. The rewrite takes 544 core cycles and 2 for each conversion after it, at least. -/
def execRewriteComplete (core : CoreId) (eng : Nat) (obs : List Conv) (s : State) : Res :=
  match fget [] (s.core core).susp eng with
  | [] => .next s
  | m :: rest =>
    match m.rewrites with
    | [] => .next s
    | r :: _ =>
      if m.row ≠ 128 ∨ (s.itemAge core 1).getD 0 < 544 + 2 * r.bitsHeld.length then .next s
      else
        let s := s.complete core 1
        let (s, m) := r.bitsHeld.foldl (fun p b => p.1.afterRewrite core eng p.2 r.slot r.win b obs) (s, m)
        let (s, m) := s.heldSteps core m r 1
        .next (s.rewriteOver core eng { m with obs := obs } rest)

/-! ## Preload and read-out (R117 to R120, R238, R239) -/

/-- The 512 entries of a residual burst (R117): decoded values, and whether a block was a NaN block. -/
def residualEntries (burst : Bytes) : List Nat × Bool :=
  ((List.range 512).map (fun e => Fp.enc (burstElem 2 burst (e / 64) (e % 64)).1),
   (List.range 8).any (fun j => burstScale burst j == 255))

/-- Cycles of a preload (Table 4-2), which are its source lines but for Zero. -/
def preCycles (mode : Nat) : Nat := if mode = 0 then 1 else if mode = 1 then 32 else if mode = 2 then 16 else if mode = 3 then 9 else 25

/-- Where line `k` of a preload's source lies: the error region follows the 9 lines of the burst. -/
def preLine (off err k : Nat) (mode : Nat) : Nat := if mode = 4 ∧ 9 ≤ k then err + 64 * (k - 9) else off + 64 * k

/-- A tile row written whole in one cycle. -/
def rowOps (eng t at_ : Nat) (es : List Nat) : List Op :=
  (List.range 32).map (fun i => { at_ := at_, port := cimPort eng, act := .row eng t i ((es.drop (16 * i)).take 16) })

/-- The entries that a preload forms from its source lines, and whether a block was a NaN block. BF16 values are widened exactly (Table 4-2);
the sum with the error term follows R81. The sums' events are not counted in `ACC_NONFIN` (log entry 104). -/
def preEntries (mode : Nat) (src : Bytes) : List Nat × Bool :=
  if mode = 1 then (words 4 src, false)
  else if mode = 2 then ((words 2 src).map (· * 65536), false)
  else
    let (es, nan) := residualEntries (src.take (9 * 64))
    (if mode = 4 then (es.zip (words 2 (src.drop (9 * 64)))).map (fun p => Fp.add p.1 (p.2 * 65536)) else es, nan)

/-- `CIM.PRE` (R238, Table 4-2): one source line in each cycle; the tile row is written in the last of them. -/
def execCimPre (core : CoreId) (ta : Ta) (eng t mode ps pe : Nat) (errs : List LineErr) (s : State) : Res :=
  let off := s.ptrOff core ps
  let err := s.ptrOff core pe
  if 6 ≤ eng ∨ 32 ≤ t ∨ 5 ≤ mode then .fault (.unpredictable .encoding)
  else if mode = 0 then .next (s.addOps core (rowOps eng t (s.cycle core) (List.replicate 512 0)))
  else if shelfOk off (Nat.min (preCycles mode) (if mode = 4 then 9 else 32)) = false ∨ (mode == 4 && !shelfOk err 16) = true then
    .fault (.unpredictable .address)
  else
    let j : Job := { instr := .cimPre core ta eng t mode ps pe errs, offs := [off, err], ctx := s.unit core (cimUnit eng), at_ := s.cycle core }
    .next (s.addOps core [partOp (cimPort eng) j.at_ j (readAccs (cimPort eng) off 1)])

/-- Line `k` of a `CIM.PRE`. -/
def State.cimPrePart (s : State) (c : CoreId) (accs : List Acc) (j : Job) (ta : Ta) (eng t mode : Nat) (errs : List LineErr) : State :=
  let line (k : Nat) := preLine (j.offs.getD 0 0) (j.offs.getD 1 0) k mode
  let ((bs, _), s) := s.busRead c accs errs ta.src (cimPort eng) (line j.k) true
  let got := j.got ++ bs
  if j.k + 1 < preCycles mode then
    s.addOps c [partOp (cimPort eng) (j.at_ + j.k + 1) { j with k := j.k + 1, got := got } (readAccs (cimPort eng) (line (j.k + 1)) 1)]
  else
    let (es, nan) := preEntries mode got
    let s := s.addOps c (rowOps eng t (j.at_ + j.k) es)
    if nan then s.raisePoison c j.ctx.lane [1] else s

/-- `CIM.OUT` (R239, R119, R120): codewords are read at 4 or at 1 in each cycle from cycle c on. -/
def execCimOut (core : CoreId) (ta : Ta) (eng t dest : Nat) (clr : Bool) (a pd : Nat) (corr unc : List Nat) (s : State) : Res :=
  let off := s.ptrOff core pd
  if 6 ≤ eng ∨ 32 ≤ t ∨ 2 ≤ dest then .fault (.unpredictable .encoding)
  else if (dest = 0 ∧ 256 < a + 32) ∨ (dest = 1 ∧ shelfOk off 32 = false) then .fault (.unpredictable .address)
  else
    let j : Job := { instr := .cimOut core ta eng t dest clr a pd corr unc, offs := [off], ctx := s.unit core (cimUnit eng), at_ := s.cycle core }
    .next (s.addOps core ((List.range 32).map (fun k =>
      partOp (cimPort eng) (j.at_ + (if dest = 0 then k / 4 else k)) { j with k := k }
        (if dest = 0 then [] else [wrAcc (cimPort eng) (off + 64 * k) 64]))))

/-- Codeword `k` of a `CIM.OUT`: copied, and cleared in the cycle after (R120 item 3). -/
def State.cimOutPart (s : State) (c : CoreId) (j : Job) (ta : Ta) (eng t dest : Nat) (clr : Bool) (a : Nat) (errs : List LineErr) : State :=
  let now := s.cycle c
  let (bs, s) := s.accRead c errs (accOff eng t j.k)
  let s := s.digest c (cimUnit eng) j.ctx (words 4 bs)
  s.addOps c ((if dest = 0 then writeOp 4 now spBuf (bufVec + 64 * (a + j.k)) bs ta.fill
      else writeOp (cimPort eng) now spShelf (j.offs.getD 0 0 + 64 * j.k) bs ta.fill) ::
    (if clr then [{ at_ := now + 1, port := cimPort eng, act := .row eng t j.k (List.replicate 16 0) }] else []))

end Sys2Proof.Machine
end

