-- ==== Sys2Proof/Machine/Vec.lean ====
section
/-!
DEFINITION. The vector slot but for the sampler (08_instruction_reference.md R246 to R252; 03_narrow_formats.md R94 to R106).
-/
namespace Sys2Proof.Machine

/-! ## Moves -/

/-- A range of vector buffer lines lies in the buffer. -/
def vecOk (a n : Nat) : Bool := decide (a + n ≤ 256)

/-- Offset of a vector buffer line. -/
def vecOff (a : Nat) : Nat := bufVec + 64 * a

/-- The latency of a class that depends on the stepping, as the layout was compiled for it (R207). -/
def State.lat (s : State) (c : CoreId) (i : Nat) : Nat := (s.partAt c).classlat.getD i 0

/-- The cycle in which a result is written that may be used `lat` cycles after `t` (R205). -/
def usable (t lat : Nat) : Nat := t + lat - 1

/-- An instruction of the vector unit as it issues. -/
def State.vecJob (s : State) (c : CoreId) (i : Instr) (offs : List Nat) (lat : Nat) : Job :=
  { instr := i, offs := offs, ctx := s.unit c 3, at_ := s.cycle c, lat := lat }

/-- Part `k` of a job, for each `k` below `n`, in cycle `at_ k`. -/
def parts (port : Nat) (j : Job) (n : Nat) (at_ : Nat → Nat) (accs : Nat → List Acc) : List Op :=
  (List.range n).map (fun k => partOp port (at_ k) { j with k := k } (accs k))

/-- `VEC.LD` (R247): `N` shelf lines to buffer lines `A` onward, one line per cycle through port 4. -/
def execVecLd (core : CoreId) (ta : Ta) (ps a n : Nat) (corr unc : List Nat) (s : State) : Res :=
  let off := s.ptrOff core ps
  if n = 0 then .next s
  else if shelfOk off n = false ∨ vecOk a n = false then .fault (.unpredictable .address)
  else
    let j := s.vecJob core (.vecLd core ta ps a n corr unc) [off] 1
    .next (s.addOps core (parts 4 j n (fun k => j.at_ + k) (fun k => readAccs 4 (off + 64 * k) 1)))

/-- Line `k` of a `VEC.LD`. -/
def State.vecLdPart (s : State) (c : CoreId) (accs : List Acc) (j : Job) (ta : Ta) (a : Nat) (errs : List LineErr) : State :=
  let ((bs, _), s) := s.busRead c accs errs ta.src 4 (j.offs.getD 0 0 + 64 * j.k) true
  s.addOps c [writeOp 4 (j.at_ + j.k) spBuf (vecOff (a + j.k)) bs ta.fill]

/-- `VEC.ST` (R247): `N` buffer lines from `A` to the shelf, two lines per cycle through port 4. -/
def execVecSt (core : CoreId) (ta : Ta) (pd a n : Nat) (errs : List LineErr) (s : State) : Res :=
  let off := s.ptrOff core pd
  if n = 0 then .next s
  else if shelfOk off n = false ∨ vecOk a n = false then .fault (.unpredictable .address)
  else
    let j := s.vecJob core (.vecSt core ta pd a n errs) [off] 1
    .next (s.addOps core (parts 4 j n (fun k => j.at_ + k / 2) (fun k => [wrAcc 4 (off + 64 * k) 64])))

/-- Line `k` of a `VEC.ST`. -/
def State.vecStPart (s : State) (c : CoreId) (j : Job) (ta : Ta) (a : Nat) (errs : List LineErr) : State :=
  let (bs, s) := s.bufRead c errs ta.src 4 (vecOff (a + j.k))
  s.addOps c [writeOp 4 (j.at_ + j.k / 2) spShelf (j.offs.getD 0 0 + 64 * j.k) bs ta.fill]

/-! ## Element-wise functions -/

/-- One FP32 result of `VEC.ALU` (R248 items 1, 6, 7). -/
def alu32 (fn a b c : Nat) : Nat :=
  match fn with
  | 0 => Fp.add a b
  | 1 => Fp.sub a b
  | 2 => Fp.mul a b
  | 3 => Fp.fma a b c
  | 4 => Fp.fmax a b
  | 5 => Fp.fmin a b
  | 6 => if Fp.lt b a then Fp.one else 0
  | _ => Fp.enc (Fp.dec a)

/-- One BF16 result: the operands widened, the operation exact, the result rounded once to BF16 (R248 item 5). -/
def alu16 (fn a b c : Nat) : Nat :=
  let x := Fp.dec (a * 65536)
  let y := Fp.dec (b * 65536)
  let z := Fp.dec (c * 65536)
  match fn with
  | 0 => Fp.enc16 (Fp.addN x y)
  | 1 => Fp.enc16 (Fp.addN x (Fp.negN y))
  | 2 => Fp.enc16 (Fp.mulN x y)
  | 3 => Fp.enc16 (Fp.addN (Fp.mulN x y) z)
  | _ => Fp.narrow (alu32 fn (a * 65536) (b * 65536) (c * 65536))

/-- The elements written by `VEC.ALU`, from its source elements. -/
def aluElems (fn fmt : Nat) (bb : Bool) (xs ys zs : List Nat) : List Nat :=
  let y0 := ys.getD 0 0
  (List.range xs.length).map (fun i =>
    let x := xs.getD i 0
    let y := if bb then y0 else ys.getD i 0
    let z := zs.getD i 0
    if fn = 8 then (if fmt = 0 then Fp.narrow x else Fp.widen x)
    else if fmt = 0 then alu32 fn x y z else alu16 fn x y z)

/-- Element bytes of a format bit: FP32 or BF16. -/
def fmtBytes (fmt : Nat) : Nat := if fmt = 0 then 4 else 2

/-- The latency class of a `VEC.ALU` (R248 item 2). -/
def aluClass (fn fmt : Nat) : Nat := if fn = 8 ∨ fmt ≠ 0 then 1 else 0

/-- `VEC.ALU` (R248): line `k` of the sources is read in cycle c + ⌊k / 4⌋ (log entry 18). -/
def execVecAlu (core : CoreId) (acc : Access) (fn fmt a b c d n : Nat) (bb : Bool) (s : State) : Res :=
  if 9 ≤ fn then .fault (.unpredictable .encoding)
  else
    let nd := if fn = 8 then (if fmt = 0 then (n + 1) / 2 else 2 * n) else n
    let nb := if bb then (if n = 0 then 0 else 1) else n
    if vecOk a n = false ∨ (decide (fn ≤ 6) && !vecOk b nb) = true ∨ (fn == 3 && !vecOk c n) = true ∨ vecOk d nd = false then
      .fault (.unpredictable .address)
    else
      let j := s.vecJob core (.vecAlu core acc fn fmt a b c d n bb) [] (s.lat core (aluClass fn fmt))
      .next (s.addOps core (parts 4 j n (fun k => j.at_ + k / 4) (fun _ => [])))

/-- Line `k` of a `VEC.ALU`: with `BB` the line `B` is read, and its tag acted on, with the first line. -/
def State.vecAluPart (s : State) (core : CoreId) (j : Job) (ta : Ta) (fn fmt a b c d : Nat) (bb : Bool) (errs : List LineErr) : State :=
  let k := j.k
  let w := fmtBytes fmt
  let (xs, s) := s.bufRead core errs ta.src 4 (vecOff (a + k))
  let (ys, s) :=
    if 6 < fn then ([], s)
    else if bb then s.bufRead core (if k = 0 then errs else []) (if k = 0 then ta.src else .none) 4 (vecOff b)
    else s.bufRead core errs ta.src 4 (vecOff (b + k))
  let (zs, s) := if fn = 3 then s.bufRead core errs ta.src 4 (vecOff (c + k)) else ([], s)
  let out := aluElems fn fmt bb (words w xs) (words w ys) (words w zs)
  let wd := if fn = 8 then fmtBytes (1 - fmt) else w
  let dst := if fn = 8 then (if fmt = 0 then vecOff d + 32 * k else vecOff (d + 2 * k)) else vecOff (d + k)
  let s := s.digest core 3 j.ctx out
  s.addOps core (runOps 4 spBuf dst (unwords wd out) ta.fill (fun _ => usable j.at_ j.lat + k / 4))

/-- One result of `VEC.TR` (R249). -/
def trOp (fn a b : Nat) : Nat :=
  match fn with
  | 0 => Fp.exp a
  | 1 => Fp.recip a
  | 2 => Fp.rsqrt a
  | 3 => Fp.div a b
  | 4 => Fp.sigmoid a
  | _ => Fp.silu a

/-- `VEC.TR` (R249): line `k` is read in cycle c + k. -/
def execVecTr (core : CoreId) (acc : Access) (fn a b d n : Nat) (s : State) : Res :=
  if 6 ≤ fn then .fault (.unpredictable .encoding)
  else if vecOk a n = false ∨ (fn == 3 && !vecOk b n) = true ∨ vecOk d n = false then .fault (.unpredictable .address)
  else
    let j := s.vecJob core (.vecTr core acc fn a b d n) [] (s.lat core 2)
    .next (s.addOps core (parts 4 j n (fun k => j.at_ + k) (fun _ => [])))

/-- Line `k` of a `VEC.TR`. -/
def State.vecTrPart (s : State) (c : CoreId) (j : Job) (ta : Ta) (fn a b d : Nat) (errs : List LineErr) : State :=
  let (xs, s) := s.bufRead c errs ta.src 4 (vecOff (a + j.k))
  let (ys, s) := if fn = 3 then s.bufRead c errs ta.src 4 (vecOff (b + j.k)) else ([], s)
  let out := (List.range 16).map (fun i => trOp fn ((words 4 xs).getD i 0) ((words 4 ys).getD i 0))
  let s := s.digest c 3 j.ctx out
  s.addOps c [writeOp 4 (usable j.at_ j.lat + j.k) spBuf (vecOff (d + j.k)) (unwords 4 out) ta.fill]

/-! ## Reductions -/

/-- One level of a balanced tree: neighbours combined. -/
def pairUp (op : Nat → Nat → Nat) : List Nat → List Nat
  | x :: y :: l => op x y :: pairUp op l
  | l => l

/-- The tree of R250 over a list, `fuel` levels at most. -/
def treeFold (op : Nat → Nat → Nat) : Nat → List Nat → List Nat
  | 0, l => l
  | k + 1, l => if l.length ≤ 1 then l else treeFold op k (pairUp op l)

/-- The least power of two at least `n`. -/
def pow2Up (n : Nat) : Nat := if n ≤ 1 then 1 else 2 ^ (Nat.log2 (n - 1) + 1)

/-- The reduction of R250. -/
def reduceXl (fn : Nat) (es : List Nat) : Nat :=
  let z := if fn = 0 then Fp.infOf true else 0
  let op := if fn = 0 then Fp.fmax else Fp.add
  let l := es ++ List.replicate (pow2Up es.length - es.length) z
  if es = [] then z else (treeFold op 16 l).getD 0 z

/-- The result of a `VEC.XL` written. -/
def State.xlResult (s : State) (c : CoreId) (j : Job) (ta : Ta) (fn fmt n d dw : Nat) (bs : Bytes) : State :=
  let es := words (fmtBytes fmt) bs
  let r := reduceXl fn (if fmt = 0 then es else es.map Fp.widen)
  let s := s.digest c 3 j.ctx [r]
  let s := s.tagDst c ta.fill 4 spBuf (vecOff d)
  s.addOps c [writeOp 4 (usable j.at_ j.lat + (n - 1) / 4) spBuf (vecOff d + 4 * dw) (natLe 4 r) false]

/-- `VEC.XL` (R250): the result goes to word `DW` of line `D`; four lines are read in each cycle. -/
def execVecXl (core : CoreId) (acc : Access) (fn fmt a n d dw : Nat) (s : State) : Res :=
  if vecOk a n = false ∨ vecOk d 1 = false ∨ 16 ≤ dw then .fault (.unpredictable .address)
  else
    let j := s.vecJob core (.vecXl core acc fn fmt a n d dw) [] (s.lat core 3)
    .next (if n = 0 then s.xlResult core j acc.ta fn fmt n d dw [] else s.addOps core [partOp 4 j.at_ j []])

/-- Lines 4 `k` to 4 `k` + 3 of a `VEC.XL`. -/
def State.vecXlPart (s : State) (c : CoreId) (j : Job) (ta : Ta) (fn fmt a n d dw : Nat) (errs : List LineErr) : State :=
  let (bs, s) := s.bufReads c errs ta.src 4 (vecOff (a + 4 * j.k)) (Nat.min 4 (n - 4 * j.k))
  let got := j.got ++ bs
  if n ≤ 4 * j.k + 4 then s.xlResult c j ta fn fmt n d dw got
  else s.addOps c [partOp 4 (j.at_ + j.k + 1) { j with k := j.k + 1, got := got } []]

/-! ## The quantiser -/

/-- A clamp counter raised (R104); reaching its maximum gives one warning record (R106). -/
def State.addClamps (s : State) (c : CoreId) (cs n : Nat) : State :=
  let r := s.sreg c (0x820 + cs)
  let old := s.regN r
  let s := s.sat32 r n
  if old < 0xFFFFFFFF ∧ s.regN r = 0xFFFFFFFF then s.log (s.siteRec c 2 255 (0x820 + cs) cs 0 0) else s

/-- The bytes of a payload of 64 element codes. -/
def payloadBytes (w : Nat) (codes : List Nat) : Bytes :=
  natLe (8 * w) ((codes.zip (List.range codes.length)).foldl (fun acc p => acc + (p.1 % 2 ^ w) * 2 ^ (w * p.2)) 0)

/-- `VEC.QNT` (R251, R94 to R104): block b of the instruction becomes block `J0` + b of the burst at `PD`. One block enters in each cycle; its
payload and error are written in cycle c + λ - `NB` + b, the header line in cycle c + λ (log entry 18). -/
def execVecQnt (core : CoreId) (acc : Access) (fmt sf sm sc ef pe cs a pd nb j0 : Nat) (zh : Bool) (s : State) : Res :=
  let dst := s.ptrOff core pd
  let err := s.ptrOff core pe
  let nl := if sf = 0 then 4 else 2
  if (fmt ≠ 2 ∧ fmt ≠ 3 ∧ fmt ≠ 4 ∧ fmt ≠ 6 ∧ fmt ≠ 7) ∨ 3 ≤ ef ∨ 64 < j0 + nb ∨ (sm = 1 ∧ (sc = 0 ∨ 255 ≤ sc)) ∨
      ((fmt = 6 ∨ fmt = 7) ∧ (sm = 1 ∨ ef ≠ 0)) then .fault (.unpredictable .encoding)
  else if nb = 0 then .next s
  else if shelfOk dst 1 = false ∨ 0x400000 < dst + 64 + 8 * elemBits fmt * (j0 + nb) ∨
      (decide (ef ≠ 0) && !shelfOk err (2 * nb)) = true ∨ vecOk a (nl * nb) = false then .fault (.unpredictable .address)
  else
    let j := s.vecJob core (.vecQnt core acc fmt sf sm sc ef pe cs a pd nb j0 zh) [dst, err] (s.lat core 4)
    .next (s.addOps core [partOp 4 j.at_ j (if ef = 2 then readAccs 4 err 2 else [])])

/-- The accesses that part `k` of a `VEC.QNT` makes: the error region of its block, and in cycle c + 1 the header line. -/
def qntAccs (dst err ef nb k : Nat) : List Acc :=
  (if ef = 2 ∧ k < nb then readAccs 4 (err + 128 * k) 2 else []) ++ (if k = 1 then readAccs 4 dst 1 else [])

/-- The header line of a `VEC.QNT`: the line as read in cycle c + 1 with the scales of its blocks. -/
def qntHeader (old scales : Bytes) (nb j0 : Nat) (zh : Bool) : Bytes :=
  (List.range 64).map (fun j =>
    if j0 ≤ j ∧ j < j0 + nb then scales.getD (j - j0) 0 else if zh = true ∧ j0 + nb ≤ j then 0 else old.getD j 0)

/-- Part `k` of a `VEC.QNT`: block `k`, and with part 1 the header line read; `got` holds the scales, `held` the header line. -/
def State.vecQntPart (s : State) (c : CoreId) (accs : List Acc) (j : Job) (ta : Ta) (fmt sf sm sc ef cs a nb j0 : Nat) (zh : Bool)
    (errs : List LineErr) : State :=
  let k := j.k
  let dst := j.offs.getD 0 0
  let err := j.offs.getD 1 0
  let nl := if sf = 0 then 4 else 2
  let w := elemBits fmt
  let (j, s) :=
    if k < nb then
      let (src, s) := s.bufReads c errs ta.src 4 (vecOff (a + nl * k)) nl
      let ((eb, _), s) := if ef = 2 then s.busRun c accs errs ta.src 4 (err + 128 * k) 2 else (([], false), s)
      let xs := words (fmtBytes sf) src
      let b := quantBlock fmt (if sm = 1 then some sc else none) (decide (ef ≠ 0)) (if sf = 0 then xs else xs.map Fp.widen)
        (if ef = 2 then (words 2 eb).map Fp.widen else List.replicate 64 0)
      let at_ := j.at_ + j.lat - nb + k
      let tail := if zh = true ∧ k + 1 = nb ∧ (8 * w * (j0 + nb)) % 64 ≠ 0 then List.replicate 32 0 else []
      let s := s.addOps c ((writeOp 4 at_ spShelf (dst + 64 + 8 * w * (j0 + k)) (payloadBytes w b.codes ++ tail)
          (ta.fill && decide ((8 * w * (j0 + k)) % 64 = 0 ∨ k = 0))) ::
        (if ef = 0 then [] else runOps 4 spShelf (err + 128 * k) (unwords 2 b.errs) ta.fill (fun _ => at_)))
      let s := if b.clamps = 0 then s else s.addClamps c cs b.clamps
      let s := s.digest c 3 j.ctx (b.codes.map (fun v => b.scale * 2 ^ w + v))
      let s := if b.poison then s.passPoison c j.ctx.lane else s
      ({ j with got := j.got ++ natLe 1 b.scale, causes := if b.poison then [3] else j.causes }, s)
    else (j, s)
  let (j, s) :=
    if k = 1 then
      let ((h, _), s) := s.busRead c accs errs .none 4 dst true
      ({ j with held := h }, s)
    else (j, s)
  if k + 1 < Nat.max nb 2 then s.addOps c [partOp 4 (j.at_ + k + 1) { j with k := k + 1 } (qntAccs dst err ef nb (k + 1))]
  else (s.addOps c [writeOp 4 (j.at_ + j.lat) spShelf dst (qntHeader j.held j.got nb j0 zh) ta.fill]).raisePoison c j.ctx.lane j.causes

/-! ## Rotary encoding -/

/-- One head of 128 dimensions rotated at position `pos` (R252). -/
def ropeHead (pos : Nat) (freq xs : List Nat) : List Nat :=
  let th := (List.range 64).map (fun i => Fp.mul (Fp.ofNat pos) (freq.getD i 0))
  let lo := (List.range 64).map (fun i =>
    Fp.sub (Fp.mul (xs.getD i 0) (Fp.cos (th.getD i 0))) (Fp.mul (xs.getD (i + 64) 0) (Fp.sin (th.getD i 0))))
  let hi := (List.range 64).map (fun i =>
    Fp.add (Fp.mul (xs.getD i 0) (Fp.sin (th.getD i 0))) (Fp.mul (xs.getD (i + 64) 0) (Fp.cos (th.getD i 0))))
  lo ++ hi

/-- `VEC.ROPE` (R252): head i is read in cycle c + 2i; the frequencies and the lane's first position are read in cycle c. -/
def execVecRope (core : CoreId) (acc : Access) (a d f nh lane poff : Nat) (s : State) : Res :=
  if 32 < nh ∨ 256 < a + 8 * nh ∨ 256 < d + 8 * nh ∨ 252 < f then .fault (.unpredictable .encoding)
  else if nh = 0 then .next s
  else
    let j := s.vecJob core (.vecRope core acc a d f nh lane poff) [entPos0 (s.sheetEnt core lane) + poff] (s.lat core 5)
    let (freq, s) := s.readRun core acc.errs spBuf (vecOff f) 4
    .next (s.addOps core (parts 4 { j with held := freq } nh (fun k => j.at_ + 2 * k) (fun _ => [])))

/-- Head `k` of a `VEC.ROPE`. -/
def State.vecRopePart (s : State) (c : CoreId) (j : Job) (ta : Ta) (a d : Nat) (errs : List LineErr) : State :=
  let (xs, s) := s.bufReads c errs ta.src 4 (vecOff (a + 8 * j.k)) 8
  let out := ropeHead (j.offs.getD 0 0) (words 4 j.held) (words 4 xs)
  let s := s.digest c 3 j.ctx out
  s.addOps c (runOps 4 spBuf (vecOff (d + 8 * j.k)) (unwords 4 out) ta.fill (fun _ => usable j.at_ j.lat + 2 * j.k))

end Sys2Proof.Machine
end

