-- ==== Sys2Proof/Machine/Att.lean ====
section
/-!
DEFINITION. The attention slot (05_attention_and_drawers.md R128 to R145, R160 to R165; 08_instruction_reference.md R241 to R245).
-/
namespace Sys2Proof.Machine

/-! ## Drawers and drawer maps (R143, R146 to R148) -/

/-- Lines and bytes of a drawer. -/
def drawerLines (fmt : Nat) : Nat := if fmt = 4 then 33 else 65
def drawerBytes (fmt : Nat) : Nat := 64 * drawerLines fmt

/-- Cabinet offset of head `h` of slot `sl` of an assignment (R146). -/
def Asg.drawerAt (a : Asg) (sl h : Nat) : Nat := a.base + (sl * a.h + h) * drawerBytes a.format

/-- The drawer ordinal of local ordinal `k` for map index `m` (R147). -/
def Asg.ordinal (a : Asg) (m k : Nat) : Nat := k * a.s + (a.shard + (a.s - m % a.s)) % a.s

/-- The shard that holds ordinal `d` of map index `m` (R147). -/
def Asg.shardOf (a : Asg) (m d : Nat) : Nat := (d + m) % a.s

/-- Cabinet offset of a map record (R148). -/
def Asg.recordAt (a : Asg) (m : Nat) : Nat := a.mapBase + 64 * a.stride * m

/-- Fields of a drawer map record (Table 5-5). -/
def mapCount (r : Bytes) : Nat := leNat (r.take 2)
def mapSlot (r : Bytes) (k : Nat) : Nat := leNat ((r.drop (4 + 2 * k)).take 2)
def mapMasked (kmax : Nat) (r : Bytes) (k : Nat) : Bool :=
  (r.getD (4 + 2 * kmax + k / 8) 0).toNat / 2 ^ (k % 8) % 2 == 1

/-- Where a lane's map record is cached in the shelf (R149), if it is. -/
def State.mapCache (s : State) (c : CoreId) (n lane : Nat) : Option Nat :=
  let v := fget 0 (s.core c).maps (n * 32 + lane)
  if v = 0 then none else some ((v - 1) / 8192)

/-! ## Tokens -/

/-- A token of a pass: its position, whether its drawer is block-masked, its 128 key and 128 value elements and their poison causes
(0 none). -/
structure Tok where
  pos : Nat
  masked : Bool
  key : List (Fp.FNum × Nat)
  val : List (Fp.FNum × Nat)

/-- Block `j` of a drawer whose lines are read by `line`, which answers none for an uncorrectable one (Table 5-4, R145). -/
def drawerBlock (fmt : Nat) (line : Nat → Option Bytes) (j : Nat) : List (Fp.FNum × Nat) :=
  let bad := List.replicate 64 (Fp.FNum.fin false 0 0, 1)
  let l := if fmt = 4 then 1 + j / 2 else 1 + j
  match line 0, line l with
  | some head, some pay =>
    let sc := (head.getD j 0).toNat
    let pay := if fmt = 4 then pay.drop (32 * (j % 2)) else pay
    (List.range 64).map (fun e =>
      let (v, p) := decElem fmt sc (payloadElem (elemBits fmt) pay e)
      (v, if sc = 255 then 1 else if p then 2 else 0))
  | _, _ => bad

/-- Token slot `t` of a drawer. -/
def drawerTok (fmt : Nat) (line : Nat → Option Bytes) (t pos : Nat) (masked : Bool) : Tok :=
  { pos := pos, masked := masked
    key := drawerBlock fmt line (2 * t) ++ drawerBlock fmt line (2 * t + 1)
    val := drawerBlock fmt line (32 + 2 * t) ++ drawerBlock fmt line (33 + 2 * t) }

/-- A line of a cabinet drawer as the engine reads it. -/
def State.drawerLine (s : State) (c : CoreId) (off l : Nat) : Option Bytes :=
  if s.isBad c spCabinet (off + 64 * l) then none else some (s.rd (wa spCabinet c (off + 64 * l)) 64)

/-! ## The pass (R131 to R137) -/

/-- The pass parameter line (Table 8-7). -/
structure PassPar where
  sigma : Nat
  g : Nat
  p : Nat
  mode : Nat
  sink : Nat
  win : Nat
  budget : Nat
  trayn : Nat
  qfmt : Nat
  trayoff : Nat
  pos0 : Nat

/-- The parameter line decoded. -/
def passPar (l : Bytes) : PassPar :=
  let n (i w : Nat) := leNat ((l.drop i).take w)
  { sigma := n 0 4, g := n 4 1, p := n 5 1, mode := n 6 1, sink := n 7 1, win := n 8 4, budget := n 12 2, trayn := n 14 1,
    qfmt := n 15 1, trayoff := n 16 4, pos0 := n 20 1 }

/-- Is every parameter in its range, and the operand pair one of Table 5-1 (R130, R242)? -/
def PassPar.ok (p : PassPar) (l : Bytes) (fmt : Nat) : Bool :=
  decide (0 < p.sigma) && decide (p.sigma < 0x7F800000) &&
  decide (1 ≤ p.g) && decide (p.g ≤ 16) && decide (1 ≤ p.p) && decide (p.p ≤ 16) && decide (p.g * p.p ≤ 64) &&
  decide (p.mode % 4 ≠ 3) && decide (p.mode < 16) && decide (1 ≤ p.win) && decide (p.win ≤ 262144) && decide (p.trayn ≤ 16) &&
  decide (p.pos0 ≤ 15) && (l.drop 21).all (· == 0) &&
  ((decide (p.qfmt = 2) && (decide (fmt = 3) || decide (fmt = 4))) ||
   ((decide (p.qfmt = 6) || decide (p.qfmt = 7)) && (decide (fmt = 6) || decide (fmt = 7))))

/-- R137 items 2 and 3: may a query at `pq` see a token at `pk` whose drawer is masked or not? -/
def PassPar.sees (p : PassPar) (pq pk : Nat) (masked : Bool) : Bool :=
  (match p.mode % 4 with
   | 0 => true
   | 1 => decide (pk ≤ pq)
   | _ => decide (pk ≤ pq) && (decide (pq - pk < p.win) || decide (pk < p.sink))) &&
  !(decide (p.mode / 4 % 2 = 1) && masked)

/-- One query row's running maximum, sum and outputs. -/
structure RowState where
  m : Nat
  l : Nat
  o : List Nat

/-- A row before its first token set. -/
def RowState.init : RowState := { m := Fp.infOf true, l := 0, o := List.replicate 128 0 }

/-- The score of R131, and whether it saturated. -/
def score (sigma : Nat) (q k : List Fp.FNum) : Nat × Bool :=
  let dot := Fp.enc (Fp.sumN ((q.zip k).map (fun p => Fp.mulN p.1 p.2)))
  let r := Fp.mul dot sigma
  if Fp.isInf r then (r - 1, true) else (r, false)

/-- The 9-bit weight of R133: `expf(x) * 256` rounded to an integer, ties to even. -/
def weight256 (x : Nat) : Nat :=
  match Fp.dec (Fp.exp x) with
  | .fin neg m e => (Fp.roundInt neg m e (-8)).toNat
  | _ => 0

/-- One step of R133 for one row over its visible tokens: scores and values. -/
def RowState.step (r : RowState) (scores : List Nat) (vals : List (List Fp.FNum)) : RowState :=
  let mnew := scores.foldl Fp.fmax r.m
  let alpha := Fp.exp (Fp.sub r.m mnew)
  let qp := scores.map (fun x => weight256 (Fp.sub x mnew))
  let w (d : Nat) : Nat := Fp.enc (Fp.sumN ((qp.zip vals).map (fun p =>
    Fp.mulN (Fp.ofInt (p.1 : Int) (-8)) (p.2.getD d (.fin false 0 0)))))
  { m := mnew
    l := Fp.add (Fp.mul r.l alpha) (Fp.enc (Fp.ofInt (qp.sum : Int) (-8)))
    o := (List.range 128).map (fun d => Fp.add (Fp.mul (r.o.getD d 0) alpha) (w d)) }

/-- One token set for one row: the row, whether a score saturated, the poison causes of the tokens decoded. -/
def RowState.tokens (r : RowState) (p : PassPar) (q : List Fp.FNum) (pq : Nat) (ts : List Tok) : RowState × Bool × List Nat :=
  let v := ts.filter (fun t => p.sees pq t.pos t.masked)
  if v.isEmpty then (r, false, [])
  else
    let sc := v.map (fun t => score p.sigma q (t.key.map Prod.fst))
    (r.step (sc.map Prod.fst) (v.map (fun t => t.val.map Prod.fst)), sc.any Prod.snd,
     ((v.map (fun t => (t.key ++ t.val).map Prod.snd)).flatten).filter (· != 0))

/-- All token sets for one row. -/
def RowState.run (p : PassPar) (q : List Fp.FNum) (pq : Nat) (sets : List (List Tok)) : RowState × Bool × List Nat :=
  sets.foldl (fun (acc : RowState × Bool × List Nat) ts =>
    let (r, sat, cs) := acc.1.tokens p q pq ts
    (r, acc.2.1 || sat, acc.2.2 ++ cs)) (RowState.init, false, [])

/-- A row normalised (R136 item 2). -/
def RowState.normalise (r : RowState) : RowState :=
  { r with o := if (match Fp.dec r.l with
      | .fin _ 0 _ => true
      | _ => false) then List.replicate 128 0 else r.o.map (fun x => Fp.div x r.l) }

/-- The output layout of `Q` rows (Table 5-2). -/
def rowsBytes (rows : List RowState) : Bytes :=
  let st := (rows.map (fun r => natLe 4 r.m ++ natLe 4 r.l)).flatten
  (rows.map (fun r => unwords 4 r.o)).flatten ++ st ++ List.replicate (64 * ((rows.length + 7) / 8) - st.length) 0

/-- The rows of a partial read back from its layout. -/
def rowsOf (bs : Bytes) (q : Nat) : List RowState :=
  (List.range q).map (fun r =>
    { o := words 4 ((bs.drop (512 * r)).take 512)
      m := leNat ((bs.drop (512 * q + 8 * r)).take 4)
      l := leNat ((bs.drop (512 * q + 8 * r + 4)).take 4) })

/-- Lines of a pass output of `q` rows. -/
def rowLines (q : Nat) : Nat := 8 * q + (q + 7) / 8

/-! ## Statistics records (R160) -/

/-- One statistics record appended to a core's export ring, a ring write of priority 5 (R296). -/
def State.exportRecord (s : State) (c : CoreId) (m l : Nat) (w2 w3 : Nat) : State :=
  let r := s.coreRec c
  if r.expRecords = 0 then s
  else
    let n := s.regN (s.sreg c 0x88D)
    let s := s.claim c
      { prio := 5, off := r.expBase + 16 * (n % r.expRecords), kind := .write (natLe 4 m ++ natLe 4 l ++ natLe 4 w2 ++ natLe 4 w3) }
    s.setRegN (s.sreg c 0x88D) ((n + 1) % 2 ^ 32)

/-- Words 2 and 3 of a statistics record (Table 5-6). -/
def statWord2 (pos req : Nat) (poison : Bool) : Nat := pos % 2 ^ 18 + req % 8192 * 2 ^ 18 + b2n poison * 2 ^ 31
def statWord3 (layer qhead beat : Nat) : Nat := layer % 1024 + qhead % 256 * 2 ^ 10 + beat % 16384 * 2 ^ 18

/-! ## The instructions -/

/-- Cycles of a drawer, and of the tray, in a pass of `q` rows (Table 5-7). -/
def drawerCycles (fmt q : Nat) : Nat := Nat.max (if fmt = 4 then 20 else 39) q
def trayCycles (fmt q n : Nat) : Nat := Nat.max (1 + (if fmt = 4 then 2 else 4) * n) (ceilDiv (q * n) 16)

/-- Cycles of one head: its drawer budget and its tray (R164). -/
def headCycles (p : PassPar) (fmt : Nat) (tray : Bool) : Nat :=
  let q := p.g * p.p
  p.budget * drawerCycles fmt q + (if tray then trayCycles fmt q p.trayn else 0)

/-- The local ordinals that a pass processes: the budgeted highest ones (R165). -/
def passOrdinals (p : PassPar) (cnt : Nat) : List Nat := (List.range cnt).filter (fun k => decide (cnt - p.budget ≤ k))

/-- The positions of the rows of a pass. -/
def passRows (p : PassPar) (p0 : Nat) : List Nat := (List.range (p.g * p.p)).map (fun r => p0 + p.pos0 + r / p.g)

/-- The drawers that a pass fetches: local ordinal, first position, masked or not. A drawer in which no row sees a token is not fetched (R138); a
drawer's token at or beyond the lane's first position lies in the tray and is not visible in the drawer (R144, R154). -/
def passDrawers (p : PassPar) (a : Asg) (m p0 cnt : Nat) (rec_ : Bytes) : List (Nat × Nat × Bool) :=
  ((passOrdinals p cnt).map (fun k => (k, 16 * a.ordinal m k, mapMasked a.kmax rec_ k))).filter (fun d =>
    (passRows p p0).any (fun pq => (List.range 16).any (fun t => decide (d.2.1 + t < p0) && p.sees pq (d.2.1 + t) d.2.2)))

/-- The tray lines of a head that hold `n` slots: the header line and the lines of each slot. -/
def trayLines (fmt n : Nat) : List Nat :=
  0 :: ((List.range n).map (fun t => if fmt = 4 then [1 + t, 17 + t] else [1 + 2 * t, 2 + 2 * t, 33 + 2 * t, 34 + 2 * t])).flatten

/-- `ATT.PASS` (R243). In cycle c port 3 reads the parameter line; the map record follows, a line in each cycle from c + 16; in cycle
c + T_map + F the queries are read; then head after head is computed. -/
def execAttPass (core : CoreId) (acc : Access) (lane asg h0 nh pp po ql : Nat) (tray exp : Bool) (s : State) : Res :=
  if nh = 0 then .next s
  else if 16 < h0 + nh ∨ 32 ≤ lane then .fault (.unpredictable .encoding)
  else
    match s.asg core asg with
    | none => .fault (.unpredictable .contract)
    | some a =>
      let ppOff := s.ptrOff core pp
      let poOff := s.ptrOff core po
      let line := if shelfReadable ppOff then (s.readLine core acc.errs spShelf ppOff).1 else zeroLine
      let p := passPar line
      let q := p.g * p.p
      if p.ok line a.format = false ∨ a.h < h0 + nh then .fault (.unpredictable .record)
      else if shelfOk ppOff 1 = false ∨ shelfOk poOff (nh * rowLines q) = false ∨ 1024 < ql + nh * (1 + 2 * q) ∨
          (tray && !shelfOk p.trayoff ((h0 + nh) * drawerLines a.format)) = true then .fault (.unpredictable .address)
      else
        let ctx : UnitCtx := { s.unit core 2 with lane := lane }
        let s := s.updCore core (fun k => { k with
          units := fset {} k.units 2 ctx
          passes := fset [] k.passes lane [a.layer, h0, nh, p.g, entPos0 (s.sheetEnt core lane) + p.pos0] })
        let j : Job := { instr := .attPass core acc lane asg h0 nh pp po ql tray exp, offs := [ppOff, poOff], ctx := ctx
                         at_ := s.cycle core, lat := (s.core core).flA }
        .next (s.addOps core [partOp 3 j.at_ j (readAccs 3 ppOff 1)])

/-- What the drawers and the tray of a head give its rows: rows, whether a score saturated, poison causes. -/
def State.passHead (s : State) (c : CoreId) (a : Asg) (p : PassPar) (m p0 h : Nat) (rec_ qb : Bytes) (trayLine : Nat → Option Bytes) (n : Nat) :
    List (RowState × Bool × List Nat) :=
  let cnt := Nat.min (mapCount rec_) a.kmax
  let drawers := (passDrawers p a m p0 cnt rec_).map (fun d =>
    let off := a.drawerAt (mapSlot rec_ d.1) h
    ((List.range 16).filter (fun t => decide (d.2.1 + t < p0))).map
      (fun t => drawerTok a.format (s.drawerLine c off) t (d.2.1 + t) d.2.2))
  let sets := drawers ++ [(List.range n).map (fun t => drawerTok a.format trayLine t (p0 + t) false)]
  (passRows p p0).zipIdx.map (fun r =>
    let el := (List.range 128).map (fun e => burstElem p.qfmt qb (2 * r.2 + e / 64) (e % 64))
    let (st, sat, cs) := RowState.run p (el.map Prod.fst) r.1 sets
    (if p.mode / 8 % 2 = 1 then st.normalise else st, sat, cs ++ (el.map Prod.snd).filter (· != 0)))

/-- The first part of a pass that works on head `i`; those before it read parameter line and map record. -/
def headPart (i : Nat) : Nat := 512 + 128 * i

/-- The lines of a pass's map record have been read: truncation, fetches and the requests of its drawer stream (R138, R165, R294). -/
def State.passMapped (s : State) (c : CoreId) (j : Job) (a : Asg) (lane h0 nh : Nat) (tray : Bool) : State :=
  let p := passPar (j.held.take 64)
  let rec_ := j.held.drop 64
  let ent := s.sheetEnt c lane
  let cnt := Nat.min (mapCount rec_) a.kmax
  let drawers := passDrawers p a (entMap ent) (entPos0 ent) cnt rec_
  let taken := drawers.length
  let s := if p.budget < cnt then (s.satFld (s.sreg c 0x88C) 31 24 1).log (s.siteRec c 2 255 0x88C lane 0 0) else s
  let s := s.sat64 (s.sreg c 0x888) (nh * taken)
  let s := s.sat64 (s.sreg c 0x88A) (nh * (p.budget - taken))
  let start := j.at_ + 16 + a.stride
  s.addOps c (((List.range nh).map (fun i => (drawers.zipIdx.map (fun d =>
      segOps 3 (start + i * headCycles p a.format tray + d.2 * drawerCycles a.format (p.g * p.p))
        (linesAt (a.drawerAt (mapSlot rec_ d.1.1) (h0 + i)) (drawerLines a.format)))).flatten)).flatten ++
    [partOp 3 (start + j.lat) { j with k := 256 } []])

/-- A head computed: its rows written in Table 5-2's layout from the end of its cycles (R243 item 2, Table 5-7), only the output values adding
to the digest (R549); statistics records where they are asked for (R160, log entry 105); the next head. A pass whose parameter line was a dropped
read writes free values. -/
def State.passDone (s : State) (c : CoreId) (accs : List Acc) (j : Job) (a : Asg) (ta : Ta) (lane h0 nh i : Nat) (tray exp : Bool) (trayBs : Bytes) :
    State :=
  let p := passPar (j.held.take 64)
  let q := p.g * p.p
  let ent := s.sheetEnt c lane
  let n := if tray then entN ent else 0
  let start (i : Nat) := j.at_ + 16 + a.stride + j.lat + i * headCycles p a.format tray
  let lines := trayLines a.format n
  let rs := s.passHead c a p (entMap ent) (entPos0 ent) (h0 + i) (j.held.drop 64) ((j.got.drop (64 * i * (1 + 2 * q))).take (64 * (1 + 2 * q)))
    (fun l => (lines.findIdx? (· == l)).map (piece trayBs)) n
  let rows := rs.map Prod.fst
  let causes := j.causes ++ (rs.map (fun r => r.2.2)).flatten
  let s := if rs.any (fun r => r.2.1) then s.satFld (s.sreg c 0x88C) 15 0 1 else s
  let s := if causes = [] then s else s.passPoison c lane
  let (bs, s) := if j.bad then
      (List.range (rowLines q)).foldl (fun (x : Bytes × State) _ => let (f, s) := x.2.takeFree; (x.1 ++ freeLine f, s)) ([], s)
    else (rowsBytes rows, s)
  let s := s.digest c 2 j.ctx (rows.map (·.o)).flatten
  let s := s.addOps c (runOps 3 spShelf (j.offs.getD 1 0 + 64 * i * rowLines q) bs ta.fill (fun k => start (i + 1) + 4 + k / 4))
  let s :=
    if exp && decide (p.mode / 8 % 2 = 1) && entExp ent then
      rows.zipIdx.foldl (fun s rr =>
        s.exportRecord c rr.1.m rr.1.l (statWord2 ((passRows p (entPos0 ent)).getD rr.2 0) (entMap ent) (s.poisoned c lane))
          (statWord3 a.layer ((h0 + i) * p.g + rr.2 % p.g) (s.partAt c).beat)) s
    else s
  if i + 1 < nh then
    s.addOps c [partOp 3 (start (i + 1) + p.budget * drawerCycles a.format q) { j with k := headPart (i + 1), causes := causes } accs]
  else s.raisePoison c lane causes

/-- The shelf offset of tray line `k` of head `h` (Table 8-7, `TRAYOFF`). -/
def trayAt (p : PassPar) (fmt n h k : Nat) : Nat := p.trayoff + h * drawerBytes fmt + 64 * (trayLines fmt n).getD k 0

/-- A part of a pass. -/
def State.attPassPart (s : State) (c : CoreId) (accs : List Acc) (j : Job) (ta : Ta) (lane asg h0 nh ql : Nat) (tray exp : Bool)
    (errs : List LineErr) : State :=
  match s.asg c asg with
  | none => s
  | some a =>
    let ent := s.sheetEnt c lane
    if j.k ≤ 255 then
      let cache := s.mapCache c asg lane
      let mapAccs (k : Nat) : List Acc := match cache with
        | some o => readAccs 3 (o + 64 * k) 1
        | none => []
      let (j, s) :=
        if j.k = 0 then
          let ((bs, d), s) := s.busRead c accs errs .none 3 (j.offs.getD 0 0) true
          ({ j with held := if d then (s.rdLine c spShelf (j.offs.getD 0 0)) else bs, bad := d }, s)
        else match cache with
          | some o =>
            let ((bs, _), s) := s.busRead c accs errs .none 3 (o + 64 * (j.k - 1)) true
            ({ j with held := j.held ++ bs }, s)
          | none => ({ j with held := j.held ++ s.rdLine c spCabinet (a.recordAt (entMap ent) + 64 * (j.k - 1)) }, s)
      if j.k < a.stride then s.addOps c [partOp 3 (j.at_ + 16 + j.k) { j with k := j.k + 1 } (mapAccs j.k)]
      else s.passMapped c j a lane h0 nh tray
    else
      let p := passPar (j.held.take 64)
      let q := p.g * p.p
      let n := entN ent
      let trayAccs (i k : Nat) : List Acc := if tray then readAccs 3 (trayAt p a.format n (h0 + i) k) 1 else []
      if j.k = 256 then
        let (qs, s) := s.bufReads c errs ta.src 3 (bufAtt + 64 * ql) (nh * (1 + 2 * q))
        s.addOps c [partOp 3 (s.cycle c + p.budget * drawerCycles a.format q) { j with k := headPart 0, got := qs } (trayAccs 0 0)]
      else
        let i := (j.k - 512) / 128
        let t := (j.k - 512) % 128
        let base := 64 * nh * (1 + 2 * q)
        if tray then
          let ((bs, _), s) := s.busRead c accs errs ta.src 3 (trayAt p a.format n (h0 + i) t) true
          let got := j.got ++ bs
          if t + 1 < (trayLines a.format n).length then
            s.addOps c [partOp 3 (s.cycle c + 1) { j with k := j.k + 1, got := got } (trayAccs i (t + 1))]
          else s.passDone c (trayAccs (i + 1) 0) { j with got := got.take base } a ta lane h0 nh i tray exp (got.drop base)
        else s.passDone c [] j a ta lane h0 nh i tray exp []

/-- Two rows merged (R140). -/
def RowState.merge (a b : RowState) : RowState :=
  let m := Fp.fmax a.m b.m
  if m = Fp.infOf true then { m := m, l := 0, o := List.replicate 128 0 }
  else
    let aa := Fp.exp (Fp.sub a.m m)
    let ab := Fp.exp (Fp.sub b.m m)
    { m := m
      l := Fp.add (Fp.mul a.l aa) (Fp.mul b.l ab)
      o := (List.range 128).map (fun d => Fp.add (Fp.mul (a.o.getD d 0) aa) (Fp.mul (b.o.getD d 0) ab)) }

/-- `ATT.MERGE` (R244): row r is read in cycle c + 6r, its values are written in cycles c + 6r + 8 and c + 6r + 9 (log entry 18). -/
def execAttMerge (core : CoreId) (acc : Access) (pa pb po q : Nat) (norm exp : Bool) (lane : Nat) (s : State) : Res :=
  let oa := s.ptrOff core pa
  let ob := s.ptrOff core pb
  let oo := s.ptrOff core po
  let n := rowLines q
  if q = 0 then .next s
  else if 64 < q ∨ 32 ≤ lane then .fault (.unpredictable .encoding)
  else if shelfOk oa n = false ∨ shelfOk ob n = false ∨ shelfOk oo n = false then .fault (.unpredictable .address)
  else
    let j : Job := { instr := .attMerge core acc pa pb po q norm exp lane, offs := [oa, ob, oo], ctx := s.unit core 2, at_ := s.cycle core }
    .next (s.addOps core (parts 3 j 1 (fun _ => j.at_) (fun _ => mergeAccs oa ob q 0)))
where
  /-- The lines that row `r` of a merge reads. -/
  mergeAccs (oa ob q r : Nat) : List Acc :=
    readAccs 3 (oa + 512 * r) 8 ++ readAccs 3 (oa + 64 * (8 * q + r / 8)) 1 ++ readAccs 3 (ob + 512 * r) 8 ++
      readAccs 3 (ob + 64 * (8 * q + r / 8)) 1

/-- One operand row of a merge read: its eight lines and its statistics line, whose tag is acted on with its first row. -/
def State.mergeRow (s : State) (c : CoreId) (accs : List Acc) (ta : Ta) (off q r : Nat) (errs : List LineErr) : RowState × State :=
  let ((o, _), s) := s.busRun c accs errs ta.src 3 (off + 512 * r) 8
  let ((st, _), s) := s.busRead c accs errs (if r % 8 = 0 then ta.src else .none) 3 (off + 64 * (8 * q + r / 8)) true
  let st := st.drop (8 * (r % 8))
  ({ m := leNat (st.take 4), l := leNat ((st.drop 4).take 4), o := words 4 o }, s)

/-- The statistics record of a merged row (R160): layer, query head and position are those of the lane's last pass on this core; the spec names no
other source, and where that pass does not give them they are free values (log entry 105). -/
def State.mergeRecord (s : State) (c : CoreId) (lane r : Nat) (row : RowState) : State :=
  let ent := s.sheetEnt c lane
  let (f, s) := s.takeFree
  let v := (Config.freeWord64 f 0).toNat
  let (pos, layer, head) := match fget [] (s.core c).passes lane with
    | [layer, h0, nh, g, pos] => (pos + r / g, layer, if nh = 1 then h0 * g + r % g else v)
    | _ => (v, v / 2 ^ 18, v / 2 ^ 28)
  s.exportRecord c row.m row.l (statWord2 pos (entMap ent) (s.poisoned c lane)) (statWord3 layer head (s.partAt c).beat)

/-- Row `k` of a merge; `got` holds the statistics of the rows of its group of eight. -/
def State.attMergePart (s : State) (c : CoreId) (accs : List Acc) (j : Job) (ta : Ta) (q : Nat) (norm exp : Bool) (lane : Nat)
    (errs : List LineErr) : State :=
  let r := j.k
  let oa := j.offs.getD 0 0
  let ob := j.offs.getD 1 0
  let oo := j.offs.getD 2 0
  let (x, s) := s.mergeRow c accs ta oa q r errs
  let (y, s) := s.mergeRow c accs ta ob q r errs
  let row := if norm then (x.merge y).normalise else x.merge y
  let got := (if r % 8 = 0 then [] else j.got) ++ natLe 4 row.m ++ natLe 4 row.l
  let s := s.digest c 2 j.ctx row.o
  let s := s.addOps c (runOps 3 spShelf (oo + 512 * r) (unwords 4 row.o) ta.fill (fun k => j.at_ + 6 * r + 8 + k / 4))
  let s := if r % 8 = 7 ∨ r + 1 = q then
      s.addOps c [writeOp 3 (j.at_ + 6 * r + 9) spShelf (oo + 64 * (8 * q + r / 8)) (got ++ List.replicate (64 - got.length) 0) ta.fill]
    else s
  let s := if exp && norm && entExp (s.sheetEnt c lane) then s.mergeRecord c lane r row else s
  if r + 1 < q then
    s.addOps c [partOp 3 (j.at_ + 6 * (r + 1)) { j with k := r + 1, got := got } (execAttMerge.mergeAccs oa ob q (r + 1))]
  else s

/-! ## Streamed layers (R161, R162) -/

/-- A line of the weights of a streamed layer as the engine reads it (R314): none for an uncorrectable one. -/
def State.gemvLine (s : State) (c : CoreId) (off : Nat) : Option Bytes :=
  match s.cabReach c off false with
  | none => some zeroLine
  | some o => if s.isBad c spCabinet o then none else some (s.rd (wa spCabinet c o) 64)

/-- Are all lines of window `w` of a virtual array readable? -/
def State.gemvOk (s : State) (c : CoreId) (img fmt w : Nat) : Bool :=
  (List.range (winLines fmt)).all (fun l => (s.gemvLine c (img + 64 * (w * winLines fmt + l))).isSome)

/-- q(d) of R46 for data column `d` of window `w`, from the streamed bursts. -/
def State.gemvQ (s : State) (c : CoreId) (img fmt w : Nat) (xs : List Int) (d : Nat) : Int :=
  let b := wBits fmt
  let t := d / (64 * b)
  ((List.range 64).map (fun r =>
    let k := 64 * b * r + d % (64 * b)
    let l := (s.gemvLine c (img + burstLine fmt w t (1 + k / 512))).getD zeroLine
    if (l.getD (k % 512 / 8) 0).toNat / 2 ^ (k % 8) % 2 = 1 then xs.getD r 0 else 0)).sum

/-- Lines of a streamed layer's destination, and of its weights (R245). -/
def gemvLines (fmt : Nat) : Nat := if fmt = 0 then 64 else 32
def gemvWeights (g n fmt : Nat) : Nat := g * n * winLines fmt

/-- The lines of the weights: the windows of array image after array image. -/
def gemvFetch (img g w0 n fmt : Nat) : List Nat :=
  ((List.range g).map (fun slot => linesAt (img + slot * imageBytes fmt + 64 * w0 * winLines fmt) (n * winLines fmt))).flatten

/-- The cycle in which line `k` of the destination is written: the last in the cycle before c + F + ⌈3L / 5⌉ + 10, four in each cycle. -/
def gemvAt (j : Job) (g n fmt k : Nat) : Nat :=
  j.at_ + j.lat + ceilDiv (3 * gemvWeights g n fmt) 5 + 9 - (gemvLines fmt - 1 - k) / 4

/-- `ATT.GEMV` (R245): the activation burst of slot a lies at buffer lines `A` + 17a, as for `CIM.MVM`; it is read when the weights begin to
arrive, in cycle c + F. With no array or no window the tree result is +0: `INIT` 0 writes it, `INIT` 1 adds nothing (R111). Windows beyond the
16 of a virtual array fault (log entry 105). -/
def execAttGemv (core : CoreId) (acc : Access) (pw fmt g w0 n a pd : Nat) (init : Bool) (h : Bool) (s : State) : Res :=
  let img := s.ptrOff core pw
  let dst := s.ptrOff core pd
  if 3 ≤ fmt ∨ 8 < g ∨ 16 < w0 + n then .fault (.unpredictable .encoding)
  else if (g = 0 ∨ n = 0) ∧ init = true then .next s
  else if img % 64 ≠ 0 ∨ spaceSize 1 < img + g * imageBytes fmt ∨ shelfOk dst (gemvLines fmt) = false ∨
      (0 < g ∧ 1024 < a + 17 * (g - 1) + n + 1) then .fault (.unpredictable .address)
  else
    let j : Job := { instr := .attGemv core acc pw fmt g w0 n a pd init h, offs := [img, dst], ctx := s.unit core 2, at_ := s.cycle core
                     lat := (s.core core).flA }
    .next (s.addOps core (segOps 3 j.at_ (gemvFetch img g w0 n fmt) ++ [partOp 3 (j.at_ + j.lat) j []]))

/-- The nodes of a streamed layer, entry by entry of its destination (R161, R113), and whether a NaN scale was met. -/
def State.gemvNodes (s : State) (c : CoreId) (img fmt g w0 n : Nat) (h : Bool) (got : Bytes) : List (Nat × Node) × Bool :=
  let act (slot w : Nat) : Nat × List Int := actBlock (got.drop (64 * slot * (n + 1))) (w - w0)
  let image (slot : Nat) : Nat := img + slot * imageBytes fmt
  let scale (slot w o : Nat) : Nat :=
    if s.gemvOk c (image slot) fmt w then
      (((s.gemvLine c (image slot + burstLine fmt w (o / 64) 0)).getD zeroLine).getD (o % 64) 0).toNat
    else 255
  let out (o : Nat) : Node := tree128 (fun i =>
    let slot := i / 16
    let w := i % 16
    if slot < g ∧ w0 ≤ w ∧ w < w0 + n then
      let (ca, xs) := act slot w
      leafOf ca (scale slot w o) (partials fmt (s.gemvQ c (image slot) fmt w xs) xs o)
    else (0, 0))
  ((List.range (outputs fmt)).map (fun o => let (d, e) := placeOf fmt h o; (512 * d + e, out o)),
   (List.range g).any (fun slot => (List.range n).any (fun j =>
     (act slot (w0 + j)).1 == 255 || (List.range (outputs fmt)).any (fun o => scale slot (w0 + j) o == 255))))

/-- A part of a streamed layer: 0 reads the activations, 1 forms the nodes, 2 + k writes line `k` of the destination. `held` holds the nodes'
values, `got` afterwards a byte for each entry that has one. -/
def State.attGemvPart (s : State) (c : CoreId) (accs : List Acc) (j : Job) (ta : Ta) (fmt g w0 n a : Nat) (init h : Bool) (errs : List LineErr) :
    State :=
  let img := j.offs.getD 0 0
  let dst := j.offs.getD 1 0
  let nl := gemvLines fmt
  if j.k = 0 then
    let (got, s) := (List.range g).foldl (fun (x : Bytes × State) k =>
      let (bs, s) := x.2.bufReads c errs ta.src 3 (bufAtt + 64 * (a + 17 * k)) (n + 1)
      (x.1 ++ bs, s)) ([], s)
    s.addOps c [partOp 3 (Nat.max (s.cycle c + 1) (gemvAt j g n fmt 0 - 1)) { j with k := 1, got := got } []]
  else if j.k = 1 then
    let (nodes, nan) := s.gemvNodes c img fmt g w0 n h j.got
    let node (e : Nat) : Option (Nat × Node) := nodes.find? (fun p => decide (p.1 = e))
    let j := { j with held := unwords 4 ((List.range (16 * nl)).map (fun e => ((node e).map (·.2.1)).getD 0))
                      got := (List.range (16 * nl)).map (fun e => if (node e).isSome then 1 else 0) }
    let s := s.addOps c ((List.range nl).map (fun k => partOp 3 (Nat.max (s.cycle c + 1) (gemvAt j g n fmt k)) { j with k := k + 2 }
      (wrAcc 3 (dst + 64 * k) 64 :: (if init then readAccs 3 (dst + 64 * k) 1 else []))))
    if nan then s.raisePoison c j.ctx.lane [1] else s
  else
    let k := j.k - 2
    let ((old, _), s) := if init then s.busRead c accs errs ta.src 3 (dst + 64 * k) true else ((zeroLine, false), s)
    let res := (words 4 old).zipIdx.map (fun p =>
      if (j.got.getD (16 * k + p.2) 0) = 1 then (addNode (p.1, 0) ((words 4 (piece j.held k)).getD p.2 0, 0)).1 else p.1)
    let s := s.digest c 2 j.ctx res
    s.addOps c [writeOp 3 (s.cycle c) spShelf (dst + 64 * k) (unwords 4 res) ta.fill]

end Sys2Proof.Machine
end

