-- ==== Sys2Proof/Machine/FabOps.lean ====
section
/-!
DEFINITION. What everything that uses the causeway fabric shares (14_causeway_fabric.md R396 to R405): packet headers, ports, routes,
streams.
-/
namespace Sys2Proof.Machine

/-! ## Packets (Table 14-1) -/

/-- The big-endian value of a run of bytes: the bits in the order in which the CRC takes them. -/
def beNat (bs : Bytes) : Nat := bs.foldl (fun a b => 256 * a + b.toNat) 0

/-- CRC-32 of a run of bytes, from 0xFFFF_FFFF (R267). -/
def crcBytes (bs : Bytes) : Nat := crc32 (beNat bs) (8 * bs.length) 0xFFFFFFFF

/-- Bytes 0 to 59 of a packet's header. -/
def packetHeader (p : Packet) : Bytes :=
  natLe 1 (p.fvc % 4 + p.kind % 64 * 4) ++ natLe 1 (p.hops % 64) ++ natLe 1 (p.payload.length % 32) ++ natLe 1 0 ++
  natLe 2 (p.lseq % 4096) ++ natLe 2 (p.lack % 4096 + b2n p.ackv * 4096 + b2n p.nak * 8192) ++ natLe 8 (p.dest % 2 ^ 60) ++
  natLe 2 (p.src % 4096) ++ natLe 2 (p.flow % 65536) ++ natLe 4 (p.eseq % 2 ^ 32) ++
  ((List.range 4).map (fun i => natLe 1 (p.credit.getD i 0))).flatten ++ (p.kd ++ List.replicate 32 0).take 32

/-- Receive units that a packet takes (R398). -/
def packetSize (p : Packet) : Nat := 1 + p.payload.length

/-- The device number of a fabric address (R9). -/
def devOf (a : Nat) : Nat := a / 2 ^ 48 % 4096

/-! ## The node -/

def State.port (s : State) (n : Nat) : Port := fget {} s.fabric.ports n
def State.setPort (s : State) (n : Nat) (p : Port) : State :=
  { s with fabric := { s.fabric with ports := fset {} s.fabric.ports n p } }

/-- The device's number, if it has one (Table 14-3). -/
def State.nodeNum (s : State) : Option Nat := if s.fld (rCwy 0) 12 12 = 1 then some (s.fld (rCwy 0) 11 0) else none

/-- The width of a port: 0 down, 2 or 4 lanes (Table 14-5). -/
def State.width (s : State) (n : Nat) : Nat := if s.fld (rCwy (0x10 + n)) 7 7 = 1 then 0 else s.fld (rCwy (0x10 + n)) 2 0

/-- An error record of the CWY block (R414). -/
def State.cwyLog (s : State) (cls reg a b : Nat) : State :=
  s.log { cls := cls, source := 86, reg := reg, a := a, b := b }

/-! ## Routes (R403) -/

/-- The metric of a destination through a port: none where it is unreachable. -/
def State.metricVia (s : State) (n dest : Nat) : Option Nat :=
  let w := s.width n
  let v := fget 0 s.fabric.vecs (n * 4096 + dest)
  if w = 0 ∨ v = 0 ∨ 64 ≤ v then none
  else
    let m := v - 1 + (if w = 4 then 1 else 2)
    if 63 ≤ m then none else some m

/-- The metric of the best route to a destination, 63 where there is none; 0 to the device itself. -/
def State.metric (s : State) (dest : Nat) : Nat :=
  if s.nodeNum = some dest then 0
  else ((List.range 16).filterMap (fun n => s.metricVia n dest)).foldl Nat.min 63

/-- The next-hop ports of a destination: the lowest-numbered four of least metric. -/
def State.hopPorts (s : State) (dest : Nat) : List Nat :=
  let m := s.metric dest
  if 63 ≤ m then [] else ((List.range 16).filter (fun n => s.metricVia n dest == some m)).take 4

/-- The port that a packet takes. -/
def State.routeOf (s : State) (p : Packet) : Option Nat :=
  let l := s.hopPorts (devOf p.dest)
  if l = [] then none else l[(p.src * 2503 + devOf p.dest * 977 + p.flow) % 65536 % l.length]?

/-! ## Sending -/

/-- May a packet go out of a port now: the port is up, the replay buffer has room, the far end has units for it? Packets of kinds 0 to 2
take no credit (R396 to R398). -/
def State.canGo (s : State) (n : Nat) (p : Packet) : Bool :=
  let x := s.port n
  s.width n != 0 && decide (x.replay.length < 256) && (decide (p.kind ≤ 2) || decide (packetSize p ≤ x.units.getD p.fvc 0))

/-- The weights by which FV0, FV2 and FV3 share what FV1 leaves (Table 14-2). -/
def fvcWeight (v : Nat) : Nat := if v = 0 then 4 else 1

/-- The packet of a port's queue that goes next, with its time (R398): kinds 0 to 2; then FV1 up to a quarter of the units sent; then of FV0, FV2
and FV3 the one that has been served least by its weight (log entry 47). -/
def State.nextOut (s : State) (n : Nat) : Option (Packet × Nat) :=
  let x := s.port n
  let q := x.txq.filter (fun p => s.canGo n p.1)
  let fv1 := q.find? (fun p => p.1.fvc == 1)
  let others := [0, 2, 3].filterMap (fun v => (q.find? (fun p => p.1.fvc == v && decide (2 < p.1.kind))).map (fun p => (v, p)))
  let share (v : Nat) : Nat := x.spent.getD v 0 * 4 / fvcWeight v
  let best := others.foldl (fun (b : Option (Nat × Packet × Nat)) y => match b with
    | some z => if share y.1 < share z.1 then some y else some z
    | none => some y) none
  (q.find? (fun p => decide (p.1.kind ≤ 2))).orElse (fun _ =>
    match fv1, best with
    | some p, none => some p
    | some p, some y => if 4 * x.spent.getD 1 0 ≤ x.spent.sum then some p else some y.2
    | none, b => b.map Prod.snd)

/-- The packets that can go out of a port leave, at most `k`. -/
def State.pump (s : State) (n : Nat) : Nat → State
  | 0 => s
  | k + 1 =>
    match s.nextOut n with
    | none => s
    | some (p, t) =>
      let x := s.port n
      let out : Packet := { p with lseq := x.lseq, lack := x.rx.getD 0, ackv := x.rx.isSome, credit := x.owed }
      let units := if p.kind ≤ 2 then x.units else x.units.set p.fvc (x.units.getD p.fvc 0 - packetSize p)
      let spent := if p.kind ≤ 2 then x.spent else x.spent.set p.fvc (x.spent.getD p.fvc 0 + packetSize p)
      let s := s.setPort n { x with lseq := (x.lseq + 1) % 4096, txq := x.txq.erase (p, t), replay := x.replay ++ [out], units := units
                                    owed := [0, 0, 0, 0], spent := spent }
      (s.send (.packet n out)).pump n k

/-- A packet put into a port's queue. -/
def State.portSend (s : State) (n : Nat) (p : Packet) : State :=
  let x := s.port n
  let s := s.setPort n { x with txq := x.txq ++ [(p, s.now)], spent := if x.txq = [] then [0, 0, 0, 0] else x.spent }
  s.pump n (x.txq.length + 1)

/-- A packet sent on its way: out of the port it takes; without a route it waits for its retransmission (R402). -/
def State.route (s : State) (p : Packet) : State :=
  match s.routeOf p with
  | some n => s.portSend n p
  | none => s

/-- A stream: packets waiting go out while fewer than 64 are unacknowledged (R402 item 1). -/
def State.streamPump (s : State) (key : Nat) : Nat → State
  | 0 => s
  | k + 1 =>
    let st := fget {} s.fabric.streams key
    match st.wait with
    | [] => s
    | p :: ps =>
      if 64 ≤ st.sent.length then s
      else
        let st := { st with wait := ps, sent := st.sent ++ [{ pkt := p, at_ := s.now }] }
        let s := { s with fabric := { s.fabric with streams := fset {} s.fabric.streams key st } }
        (s.route p).streamPump key k

/-- A packet entered into the stream to a destination (R402 item 1); one for this device itself is delivered (before R402). A device without
a number sends none. -/
def State.fabSend (s : State) (dest fvc kind flow : Nat) (kd : Bytes) (payload : List Bytes) : State :=
  match s.nodeNum with
  | none => s
  | some me =>
    let key := devOf dest * 4 + fvc
    let st := fget {} s.fabric.streams key
    let p : Packet := { fvc := fvc, kind := kind, hops := 0, lseq := 0, lack := 0, ackv := false, nak := false, dest := dest, src := me
                        flow := flow, eseq := st.next, credit := [0, 0, 0, 0], kd := kd, payload := payload }
    if devOf dest = me then { s with fabric := { s.fabric with inbox := s.fabric.inbox ++ [p] } }
    else
      let st := { st with next := (st.next + 1) % 2 ^ 32, wait := st.wait ++ [p] }
      let s := { s with fabric := { s.fabric with streams := fset {} s.fabric.streams key st } }
      s.streamPump key st.wait.length

/-- The fabric address of a device. -/
def devAddr (d : Nat) : Nat := d * 2 ^ 48

/-- A run of bytes as payload lines, zeros to the end of the last one. -/
def linesOf (bs : Bytes) : List Bytes :=
  (List.range ((bs.length + 63) / 64)).map (fun i => let l := (bs.drop (64 * i)).take 64; l ++ List.replicate (64 - l.length) 0)

/-- Payload lines sent as packets of one kind, 16 lines each at most; a message without lines is one packet. -/
def State.fabMessage (s : State) (dest fvc kind flow : Nat) (kd : Bytes) (lines : List Bytes) : State :=
  if lines = [] then s.fabSend dest fvc kind flow kd []
  else (List.range ((lines.length + 15) / 16)).foldl (fun s i => s.fabSend dest fvc kind flow kd ((lines.drop (16 * i)).take 16)) s

/-! ## Gates and migrations: state that a reset of the PF also ends (R406, R411, R413) -/

def rGate (g w : Nat) : Nat := rCwy (0x100 + 8 * g + w)
def State.gate (s : State) (g : Nat) : Gate := fget {} s.fabric.gates g
def State.setGate (s : State) (g : Nat) (x : Gate) : State := { s with fabric := { s.fabric with gates := fset {} s.fabric.gates g x } }

/-- A firing in flight stops: its reads, its packets and its addition are awaited no more. -/
def State.gateStop (s : State) (g : Nat) : State :=
  (s.setGate g { fires := (s.gate g).fires }).dropClaims (fun k => k == .gate g)

/-- A gate's firing ends with a status (R405, R406, R402). -/
def State.gateEnd (s : State) (g status : Nat) : State :=
  if (s.gate g).busy = false then s else (s.gateStop g).setFld (rGate g 6) 26 24 status

/-- A line of a gate's chunk has been read (R406 items 1 and 2): with 16 of them, or the last, a packet goes out. -/
def State.gateLine (s : State) (g : Nat) (line : Bytes) : State :=
  let x := s.gate g
  if x.busy = false ∨ x.len ≤ x.got then s
  else
    let x := { x with got := x.got + 1, data := x.data ++ [line] }
    if x.data.length = 16 ∨ x.got = x.len then
      (s.setGate g { x with data := [] }).fabSend ((x.dst + 64 * (x.got - x.data.length)) % 2 ^ 60) 0 0x05 g [] x.data
    else s.setGate g x

/-- A migration ends with a status (Table 14-16). -/
def State.migEnd (s : State) (status : Nat) : State :=
  if s.fabric.mig.isSome then { s with fabric := { s.fabric with mig := none } }.setRegN (rCwy 0x71) status else s

/-- Every gate is disabled: a firing in flight ends, its status idle (R413). -/
def State.gatesOff (s : State) : State :=
  (List.range 64).foldl (fun (s : State) g => ((s.gateStop g).setFld (rGate g 4) 20 20 0).setFld (rGate g 6) 26 24 0) s

end Sys2Proof.Machine
end

