-- ==== Sys2Proof/Machine/Ctl.lean ====
section
/-!
DEFINITION. The control slot (08_instruction_reference.md R228 to R235). What an instruction sets it sets at the end of its cycle, from which
the instructions of the next cycle see it.
-/
namespace Sys2Proof.Machine

/-- `CTL.PLD` (R229): the low 48 bits of words `WO` and `WO` + 1 at `PB` + 4 x `WO` go to `PT`. -/
def execCtlPld (core : CoreId) (ta : Ta) (pt pb wo : Nat) (errs : List LineErr) (s : State) : Res :=
  let base := s.ptrOff core pb
  let off := base + 4 * wo
  if wo % 2 = 1 ∨ 32 ≤ pt ∨ 32 ≤ pb then .fault (.unpredictable .encoding)
  else if shelfOk base 1 = false ∨ 0x400000 ≤ off then .fault (.unpredictable .address)
  else
    let j : Job := { instr := .ctlPld core ta pt pb wo errs, offs := [off], at_ := s.cycle core }
    .next (s.addOps core [partOp 0 j.at_ j [{ port := 0, line := off / 64, wide := false }]])

/-- The narrow access of `CTL.PLD`. -/
def State.pldPart (s : State) (c : CoreId) (accs : List Acc) (j : Job) (src : SrcAct) (pt : Nat) (errs : List LineErr) : State :=
  let off := j.offs.getD 0 0
  let ((bs, _), s) := s.busRead c accs errs src 0 (off / 64 * 64) false
  s.setPtr c pt (BitVec.ofNat 48 (leNat ((bs.drop (off % 64)).take 6)))

/-- `CTL.PADD` (R230): the offset field moves by 64 x `IMM`, modulo 2^29. -/
def execCtlPadd (core : CoreId) (pt : Nat) (imm : Int) (s : State) : Res :=
  if 32 ≤ pt then .fault (.unpredictable .encoding)
  else
    let v := (s.ptr core pt).toNat
    let off := (((v % 2 ^ 29 : Nat) : Int) + 64 * imm) % 2 ^ 29
    .next (s.addOps core [{ at_ := s.cycle core, port := 0, act := .ptr pt (BitVec.ofNat 48 (v / 2 ^ 29 * 2 ^ 29 + off.toNat)) }])

/-- `CTL.LOOP` (R231): opens a loop over the `LEN` bundles that follow, or skips them; more than four open loops, or two with one
counter, or a body that leaves the one around it break the contract of items 2 and 3. -/
def execCtlLoop (core : CoreId) (lc count len : Nat) (s : State) : Res :=
  let k := s.core core
  if 4 ≤ lc then .fault (.unpredictable .encoding)
  else if count = 0 ∨ len = 0 then .next (s.setCore core { k with next := k.next + len })
  else if 4 ≤ k.loops.length ∨ k.loops.any (fun l => l.lc == lc || decide (l.last < k.next + len - 1)) then .fault (.unpredictable .contract)
  else
    .next (s.setCore core
      { k with loops := { lc := lc, first := k.next, last := k.next + len - 1, left := count - 1 } :: k.loops
               lcs := fset 0 k.lcs lc count })

/-- `CTL.JUMP` (R232): `TARGET` is the next bundle. A jump out of the innermost open body, or from its last bundle, breaks the
contract. -/
def execCtlJump (core : CoreId) (target : Nat) (s : State) : Res :=
  if 32768 ≤ target then .fault (.unpredictable .encoding)
  else if (s.core core).loops.head?.any (fun l =>
      decide (target < l.first) || decide (l.last < target) || decide ((s.core core).next = l.last + 1)) then
    .fault (.unpredictable .contract)
  else .next (s.updCore core (fun k => { k with next := target }))

/-- `CTL.FLEAD` (R234): the fetch lead of a unit, at least 16. -/
def execCtlFlead (core : CoreId) (u f : Nat) (s : State) : Res :=
  .next (s.addOps core [{ at_ := s.cycle core, port := 0, act := .lead u (Nat.max 16 f) }])

/-- `CTL.LANE` (R235): a unit's current lane, digest tensor and digest enable; units 5 to 7 are reserved. -/
def execCtlLane (core : CoreId) (unit lane tensor : Nat) (dg : Bool) (s : State) : Res :=
  if 5 ≤ unit then .fault (.unpredictable .encoding)
  else .next (s.addOps core [{ at_ := s.cycle core, port := 0, act := .lane unit { lane := lane, tensor := tensor, dg := dg } }])

end Sys2Proof.Machine
end

