-- ==== Sys2Proof/Machine/Samp.lean ====
section
/-!
DEFINITION. The sampler's steps (08_instruction_reference.md R253; 12_serving_engine.md R352 to R357).
-/
namespace Sys2Proof.Machine

/-- A candidate: its FP32 value and its token. -/
abbrev Cand := Nat × Nat

/-- Does a candidate come before another (R253): a larger value, or an equal one with a smaller token? -/
def candBefore (x y : Cand) : Bool := Fp.lt y.1 x.1 || (!Fp.lt x.1 y.1 && decide (x.2 < y.2))

/-- A candidate put into an ordered list. -/
def candInsert (x : Cand) : List Cand → List Cand
  | [] => [x]
  | y :: l => if candBefore x y then x :: y :: l else y :: candInsert x l

/-- Candidates in the order of R253, the first `n`. -/
def candBest (n : Nat) (l : List Cand) : List Cand := l.foldl (fun acc x => (candInsert x acc).take n) []

/-- A candidate list as 33 lines. -/
def candBytes (l : List Cand) : Bytes :=
  let es := (l.map (fun e => natLe 4 e.1 ++ natLe 4 e.2)).flatten
  natLe 4 l.length ++ List.replicate 60 0 ++ es ++ List.replicate (2048 - es.length) 0

/-- A candidate list read back. -/
def candRead (bs : Bytes) : List Cand :=
  (List.range (leNat (bs.take 4))).map (fun e => (leNat ((bs.drop (64 + 8 * e)).take 4), leNat ((bs.drop (68 + 8 * e)).take 4)))

/-- Fields of a lane's sampling record (Table 12-6). -/
def sampTemp (r : Bytes) : Nat := leNat (r.take 4)
def sampTopP (r : Bytes) : Nat := leNat ((r.drop 4).take 4)
def sampMinP (r : Bytes) : Nat := leNat ((r.drop 8).take 4)
def sampTopK (r : Bytes) : Nat := leNat ((r.drop 12).take 2)
def sampNstop (r : Bytes) : Nat := leNat ((r.drop 14).take 1) % 16
def sampNbias (r : Bytes) : Nat := leNat ((r.drop 15).take 1) % 128
def sampSeed (r : Bytes) : Nat := leNat ((r.drop 16).take 8)
def sampStops (r : Bytes) : List Nat := (List.range (sampNstop r)).map (fun i => leNat ((r.drop (24 + 4 * i)).take 4))
def sampBias (r : Bytes) (t : Nat) : Option Nat :=
  ((List.range (sampNbias r)).find? (fun i => decide (leNat ((r.drop (64 + 8 * i)).take 4) = t))).map
    (fun i => leNat ((r.drop (68 + 8 * i)).take 4))

/-- The sampling record in vector buffer lines 247 to 255 (R352). -/
def State.sampRec (s : State) (c : CoreId) : Bytes := s.bufRun c (vecOff 247) 9

/-- One logit adjusted (R353): the value and whether it raises poison. -/
def adjust (r : Bytes) (t z : Nat) : Nat × Bool :=
  let nan := Fp.isNan z
  let z := if nan then Fp.infOf true else z
  let z := match sampBias r t with
    | some b => Fp.add z b
    | none => z
  let z := if Fp.lt 0 (sampTemp r) then Fp.div z (sampTemp r) else z
  if Fp.isNan z then (Fp.infOf true, true) else (z, nan)

/-- `VEC.SAMP` step SCAN (R353): the sampling record and the first token are read in cycle c, four lines of logits in each cycle. -/
def execScan (core : CoreId) (acc : Access) (lane a b d n : Nat) (s : State) : Res :=
  if 32 ≤ lane then .fault (.unpredictable .encoding)
  else if vecOk a n = false ∨ vecOk b 1 = false ∨ vecOk d 33 = false then .fault (.unpredictable .address)
  else
    let (rec_, s) := s.readRun core acc.errs spBuf (vecOff 247) 9
    let (first, s) := s.bufRead core acc.errs acc.ta.src 4 (vecOff b)
    let j := s.vecJob core (.scan core acc lane a b d n) [leNat (first.take 4)] (s.lat core 6)
    .next (s.addOps core [partOp 4 j.at_ { j with held := rec_ } []])

/-- Lines 4 `k` to 4 `k` + 3 of a SCAN; after the last the list is formed. -/
def State.scanPart (s : State) (c : CoreId) (j : Job) (ta : Ta) (a d n : Nat) (errs : List LineErr) : State :=
  let (bs, s) := s.bufReads c errs ta.src 4 (vecOff (a + 4 * j.k)) (Nat.min 4 (n - 4 * j.k))
  let got := j.got ++ bs
  if n ≤ 4 * j.k + 4 then
    let zs := words 4 got
    let first := j.offs.getD 0 0
    let es := (List.range zs.length).map (fun k => (adjust j.held (first + k) (zs.getD k 0), first + k))
    let l := candBest (Nat.min (sampTopK j.held) 256) (es.map (fun e => (e.1.1, e.2)))
    let s := s.addOps c (runOps 4 spBuf (vecOff d) (candBytes l) ta.fill (fun _ => usable j.at_ j.lat + ceilDiv n 4))
    if es.any (fun e => e.1.2) then s.raisePoison c j.ctx.lane [6] else s
  else s.addOps c [partOp 4 (j.at_ + j.k + 1) { j with k := j.k + 1, got := got } []]

/-- `VEC.SAMP` step MERGE (R253): both lists merged, at most the record's count kept. A count above 256 is malformed. -/
def execSamplerMerge (core : CoreId) (acc : Access) (a b d : Nat) (s : State) : Res :=
  if vecOk a 33 = false ∨ vecOk b 33 = false ∨ vecOk d 33 = false then .fault (.unpredictable .address)
  else
    let (rec_, s) := s.readRun core acc.errs spBuf (vecOff 247) 9
    let (x, s) := s.bufReads core acc.errs acc.ta.src 4 (vecOff a) 33
    let (y, s) := s.bufReads core acc.errs acc.ta.src 4 (vecOff b) 33
    if 256 < leNat (x.take 4) ∨ 256 < leNat (y.take 4) then .fault (.unpredictable .record)
    else
      let l := candBest (Nat.min (sampTopK rec_) 256) (candRead x ++ candRead y)
      .next (s.addOps core (runOps 4 spBuf (vecOff d) (candBytes l) acc.ta.fill (fun _ => usable (s.cycle core) (s.lat core 6) + 16)))

/-- The 24-bit generator value of R355. -/
def gen (seed pos : Nat) : Nat :=
  let m := 2 ^ 64
  let x := (seed + (pos + 1) * 0x9E3779B97F4A7C15) % m
  let x := (x ^^^ (x / 2 ^ 30)) * 0xBF58476D1CE4E5B9 % m
  let x := (x ^^^ (x / 2 ^ 27)) * 0x94D049BB133111EB % m
  (x ^^^ (x / 2 ^ 31)) / 2 ^ 40

/-- Is the first FP32 value at least the second? False with a NaN. -/
def geq (x y : Nat) : Bool := !Fp.isNan x && !Fp.isNan y && !Fp.lt x y

/-- Running FP32 sums. -/
def cumSums : Nat → List Nat → List Nat
  | _, [] => []
  | acc, p :: l => Fp.add acc p :: cumSums (Fp.add acc p) l

/-- The token a `DRAW` chooses for position `pos` from a non-empty list with `TEMP` above 0 (R354). -/
def drawToken (r : Bytes) (pos : Nat) (l : List Cand) : Nat :=
  let z0 := (l.getD 0 (0, 0)).1
  let ps := (List.range l.length).map (fun e => if e = 0 then Fp.one else Fp.exp (Fp.sub (l.getD e (0, 0)).1 z0))
  let keep := ((List.range l.length).find? (fun e => decide (1 ≤ e) && Fp.lt (ps.getD e 0) (sampMinP r))).getD l.length
  let cum := cumSums 0 (ps.take keep)
  let lim := Fp.mul (sampTopP r) (cum.getD (keep - 1) 0)
  let n := match (List.range keep).find? (fun e => geq (cum.getD e 0) lim) with
    | some e => e + 1
    | none => keep
  let x := Fp.mul (Fp.enc (Fp.ofInt (gen (sampSeed r) pos : Int) (-24))) (cum.getD (n - 1) 0)
  let e := ((List.range n).find? (fun e => Fp.lt x (cum.getD e 0))).getD (n - 1)
  (l.getD e (0, 0)).2

/-- `VEC.SAMP` step DRAW (R354): list, sampling record and position are read in cycle c; `k` counts the lane's draws of the beat. -/
def execDraw (core : CoreId) (acc : Access) (lane a : Nat) (s : State) : Res :=
  if 32 ≤ lane then .fault (.unpredictable .encoding)
  else if vecOk a 33 = false then .fault (.unpredictable .address)
  else
    let (bs, s) := s.bufReads core acc.errs acc.ta.src 4 (vecOff a) 33
    if 256 < leNat (bs.take 4) then .fault (.unpredictable .record)
    else
      let (rec_, s) := s.readRun core acc.errs spBuf (vecOff 247) 9
      let i := fget 0 (s.core core).draws lane
      let j := s.vecJob core (.draw core acc lane a) [entPos0 (s.sheetEnt core lane)] (s.lat core 6 + 32)
      let s := s.updCore core (fun k => { k with draws := fset 0 k.draws lane (i + 1) })
      .next (s.addOps core [partOp 4 (usable j.at_ j.lat) { j with k := i, got := bs, held := rec_ } [wrAcc 4 (wordOff lane) 60]])

/-- The token of a draw: 0 from an empty list, the first entry at `TEMP` 0. -/
def drawn (r bs : Bytes) (pos : Nat) : Nat :=
  let l := candRead bs
  let zero := match Fp.dec (sampTemp r) with
    | .fin _ 0 _ => true
    | _ => false
  (if l = [] then 0 else if zero then (l.getD 0 (0, 0)).2 else drawToken r pos l) % 2 ^ 24

/-- A lane state word as a draw leaves it (Table 12-2): the token and its place among the lane's draws, `NDRAW`, `EMPTY` and `STOP`; `ACCEPT`
becomes 1. -/
def drawWord (w r bs : Bytes) (i tok : Nat) : Bytes :=
  let flags := (w.getD 5 0).toNat ||| (if candRead bs = [] then 8 else 0) ||| (if (sampStops r).contains tok then 4 else 0)
  let w := natLe 4 tok ++ [1] ++ natLe 1 flags ++ natLe 1 (Nat.min (i + 1) 15) ++ w.drop 7
  if i ≤ 8 then w.take (16 + 4 * i) ++ natLe 4 tok ++ w.drop (20 + 4 * i) else w

/-- A draw's result. -/
def State.drawPart (s : State) (c : CoreId) (accs : List Acc) (j : Job) (ta : Ta) (lane : Nat) : State :=
  let tok := drawn j.held j.got (j.offs.getD 0 0 + j.k + 1)
  s.busWrite c accs ta.fill 4 (wordOff lane) ((drawWord (s.laneWord c lane) j.held j.got j.k tok).take 60)

/-- The accept count of R357: one more than the drafts that equal the target's draws from the first on. -/
def acceptCount : List Nat → List Nat → Nat
  | d :: ds, y :: ys => if d = y then acceptCount ds ys + 1 else 1
  | _, _ => 1

/-- `VEC.SAMP` step VERIFY (R357). -/
def execVerify (core : CoreId) (acc : Access) (lane : Nat) (s : State) : Res :=
  if 32 ≤ lane then .fault (.unpredictable .encoding)
  else
    let j := s.vecJob core (.verify core acc lane) [] (s.lat core 6 + 8)
    let j := { j with got := s.sheetEnt core lane }
    .next (s.addOps core [partOp 4 (usable j.at_ j.lat) j [wrAcc 4 (wordOff lane + 4) 1]])

/-- The accept count of a lane from its view entry and its state word: drafts `TOK[1]` to `TOK[N - 1]` against the lane's draws. -/
def verified (ent w : Bytes) : Nat :=
  let drafts := (List.range (entN ent - 1)).map (fun m => entTok ent (m + 1))
  let ys := (List.range (Nat.min (leNat ((w.drop 6).take 1) % 16) 9)).map (fun i => leNat ((w.drop (16 + 4 * i)).take 4))
  acceptCount drafts ys

/-- A check's result: `ACCEPT`, beside what stands in its word. -/
def State.verifyPart (s : State) (c : CoreId) (accs : List Acc) (j : Job) (ta : Ta) (lane : Nat) : State :=
  let w := s.laneWord c lane
  s.busWrite c accs ta.fill 4 (wordOff lane + 4) (natLe 1 (verified j.got w) ++ (w.drop 5).take 3)

end Sys2Proof.Machine
end

