-- ==== Sys2Proof/Machine/Mesh.lean ====
section
/-!
DEFINITION. Routes over the logical grid (09_straits_and_stall_wave.md R265), lines and their flits (R262, R263), and lines entering the
network.
-/
namespace Sys2Proof.Machine

/-! ## Nodes and routes (R265) -/

/-- The harbours as nodes of the network, by their `ISLE` codes 0x78 to 0x7B. -/
def westHarbour : Nat := 2 ^ 20 + 0x78
def eastHarbour : Nat := 2 ^ 20 + 0x79
def northHarbour : Nat := 2 ^ 20 + 0x7A
def southHarbour : Nat := 2 ^ 20 + 0x7B

/-- Is a node a harbour? -/
def isHarbour (n : Nat) : Bool := decide (2 ^ 20 ≤ n)

/-- A core's row and column in the logical grid, counted over all isles. -/
def State.gridRow (s : State) (c : CoreId) : Nat := cIsle c / s.gridCols * 12 + cRow c
def State.gridCol (s : State) (c : CoreId) : Nat := cIsle c % s.gridCols * 12 + cCol c

/-- The core at a row and a column of the logical grid. -/
def State.gridCore (s : State) (r k : Nat) : CoreId := mkCore (r / 12 * s.gridCols + k / 12) (r % 12) (k % 12)

/-- The steps from one grid coordinate to another: each coordinate reached, and whether the step leaves an isle. -/
def walkSteps (a b : Nat) : List (Nat × Bool) :=
  if a ≤ b then (List.range (b - a)).map (fun i => (a + i + 1, decide ((a + i) / 12 ≠ (a + i + 1) / 12)))
  else (List.range (a - b)).map (fun i => (a - i - 1, decide ((a - i) / 12 ≠ (a - i - 1) / 12)))

/-- From core to core: first along the core row, then along the column. -/
def State.routeCores (s : State) (a b : CoreId) : List Hop :=
  let (r, k, r', k') := (s.gridRow a, s.gridCol a, s.gridRow b, s.gridCol b)
  (walkSteps k k').map (fun x => { dir := if k < k' then 1 else 3, strait := x.2, dest := s.gridCore r x.1 }) ++
    (walkSteps r r').map (fun x => { dir := if r < r' then 2 else 0, strait := x.2, dest := s.gridCore x.1 k' })

/-- The core at the grid's edge before a harbour, on a core's own row or column (R265 items 1 and 2). -/
def State.edgeCore (s : State) (c : CoreId) (harbour : Nat) : CoreId :=
  if harbour = westHarbour then s.gridCore (s.gridRow c) 0
  else if harbour = eastHarbour then s.gridCore (s.gridRow c) (12 * s.gridCols - 1)
  else if harbour = northHarbour then s.gridCore 0 (s.gridCol c)
  else s.gridCore (12 * 8 - 1) (s.gridCol c)

/-- The direction in which a harbour lies. -/
def harbourDir (harbour : Nat) : Nat :=
  if harbour = westHarbour then 3 else if harbour = eastHarbour then 1 else if harbour = northHarbour then 0 else 2

/-- The route between two nodes (R265). -/
def State.meshRoute (s : State) (a b : Nat) : List Hop :=
  if isHarbour a then
    let e := s.edgeCore b a
    { dir := (harbourDir a + 2) % 4, strait := true, dest := e } :: s.routeCores e b
  else if isHarbour b then
    s.routeCores a (s.edgeCore a b) ++ [{ dir := harbourDir b, strait := true, dest := b }]
  else s.routeCores a b

/-- The hops inside isles and the strait crossings of a route: h and s of R265. -/
def routeH (r : List Hop) : Nat := (r.filter (fun x => !x.strait)).length
def routeS (r : List Hop) : Nat := (r.filter (fun x => x.strait)).length

/-- The cycles of a route for a VC0 flit (R266). -/
def routeCycles (r : List Hop) : Nat := 2 * routeH r + 20 * routeS r

/-! ## Lines and flits (R263) -/

/-- The `KIND` of a message (Table 9-1). A remote flow's data are read data where a request asked for them. -/
def NetMsg.kind (read : Bool) : NetMsg → Nat
  | .vc0 _ => 0x00
  | .request _ => 0x01
  | .flowLine _ _ _ _ => if read then 0x02 else 0x03
  | .vc3 (.sheetLine _ _ _) => 0x10
  | .vc3 (.sync _ _) => 0x11
  | .vc3 (.laneState _ _ _ _) => 0x12
  | .vc3 (.void _ _) => 0x14

/-- The sideband of the first flit of a scheduled line (Table 9-1, `H` = 0). -/
def firstSideband (l : MeshLine) : BitVec 48 :=
  let sp := if l.space = spShelf then 0 else if l.space = spCabinet then 1 else 2
  BitVec.ofNat 48 (2 ^ 3 * b2n l.fill + 2 ^ 4 * b2n l.poison + 2 ^ 5 * b2n l.last + 2 ^ 6 * sp + 2 ^ 9 * (cIsle l.core % 128) +
    2 ^ 16 * (l.core % 256) + 2 ^ 24 * (l.line % 2 ^ 23))

/-- The sideband of its second flit (Table 9-1, `H` = 1). -/
def secondSideband (l : MeshLine) : BitVec 48 :=
  BitVec.ofNat 48 (2 ^ 2 + 2 ^ 3 * (l.lane % 32) + 2 ^ 16 * checkBits (leNat l.data))

/-- A line put on the network at its source: it is there from cycle `at_`; a scheduled one leaves in score cycle `sch`. -/
def State.inject (s : State) (vc : Nat) (msg : NetMsg) (src dst at_ sch : Nat) : State :=
  { s with net := s.net ++ [{ id := s.netId, vc := vc, msg := msg, here := src, route := s.meshRoute src dst, at_ := at_, sch := sch }]
           netId := s.netId + 1 }

/-- A VC3 message leaves a node for another (R272). -/
def State.sendVc3 (s : State) (src dst : Nat) (m : Vc3Msg) : State := s.inject 3 (.vc3 m) src dst s.cyc 0

end Sys2Proof.Machine
end

