-- ==== Sys2Proof/Machine/Xfr.lean ====
section
/-!
DEFINITION. The transfer slot (08_instruction_reference.md R254 to R261; 05_attention_and_drawers.md R146 to R159;
21_telemetry_logs_digests.md R550): copies, gathers, drawer maps, scatter and release, signals, lane state words, digest records. An
instruction checks its operands as it issues; its parts follow in the cycles of its score time (log entry 18).
-/
namespace Sys2Proof.Machine

/-! ## Routes (Table 8-10) -/

/-- Where a wafer operand lies, seen from a core: its space, its core after relocation, its offset. -/
structure Place where
  space : Nat
  core : CoreId
  off : Nat
deriving DecidableEq, Repr

/-- A wafer operand of `n` lines; none for an address that does not exist (R10) or that is not line-aligned. -/
def State.place (s : State) (c : CoreId) (i n : Nat) : Option Place :=
  let a := s.ptrWafer c i
  let p : Place := { space := waSpace a, core := waCore a, off := waOff a }
  if s.coreOk p.core && decide (p.off % 64 = 0) && decide (p.off + 64 * n ≤ spaceSize p.space) then some p else none

/-- Is a core one of the partition that another core belongs to? -/
def State.samePart (s : State) (c d : CoreId) : Bool := (s.partOf d).isSome && s.partOf c == s.partOf d

/-- An instruction of the transfer engine as it issues. -/
def State.xfrJob (s : State) (c : CoreId) (i : Instr) (offs : List Nat) : Job :=
  { instr := i, offs := offs, ctx := s.unit c 4, at_ := s.cycle c, lat := (s.core c).flX }

/-- Cycles after the first in which line `k` of a cabinet stream moves: 5 lines in 3 cycles. -/
def cabPace (k : Nat) : Nat := 3 * k / 5

/-- The remote flows that a core has in flight. -/
def State.flowsOf (s : State) (c : CoreId) : Nat := (s.flows.filter (fun f => decide (f.core = c) && decide (f.done < f.lines.length))).length

/-- A remote flow starts (R275); the answer names it. A flow that reads sends its request to the core it reads from. -/
def State.startFlow (s : State) (c : CoreId) (lane : Nat) (lines : List FlowLine) (pull : Bool) (ask : Option CoreId) : Nat × State :=
  let id := s.netId
  let s := { s with flows := s.flows ++ [{ id := id, core := c, lane := lane, lines := lines, pull := pull }], netId := id + 1 }
  (id, match ask with
    | some d => s.inject 2 (.request id) c d s.cyc 0
    | none => s)

/-- The lines of a flow from a place to another. -/
def flowLines (src dst : Place) (n : Nat) : List FlowLine :=
  (List.range n).map (fun k => { src := wa src.space src.core (src.off + 64 * k), dst := wa dst.space dst.core (dst.off + 64 * k) })

/-- Cycles between the lines of a flow (R275). -/
def flowPace : Nat := 8

/-- The routes of Table 8-10. -/
inductive Route where
  | shelf | fromCabinet | toCabinet | scheduled | push | pull
deriving DecidableEq, Repr

/-- The route of a copy; none for another pairing. -/
def State.copyRoute (s : State) (c : CoreId) (src dst : Place) (rt : Nat) : Option Route :=
  let ls := decide (src.core = c)
  let ld := decide (dst.core = c)
  if rt = 0 ∧ ls ∧ ld ∧ src.space = 0 ∧ dst.space = 0 then some .shelf
  else if rt = 0 ∧ ls ∧ ld ∧ src.space = 1 ∧ dst.space = 0 then some .fromCabinet
  else if rt = 0 ∧ ls ∧ ld ∧ src.space = 0 ∧ dst.space = 1 then some .toCabinet
  else if rt = 0 ∧ ls ∧ !ld ∧ src.space = 0 ∧ dst.space = 0 ∧ s.samePart c dst.core then some .scheduled
  else if rt = 1 ∧ ls ∧ !ld ∧ src.space = 0 ∧ dst.space ≤ 1 ∧ s.samePart c dst.core then some .push
  else if rt = 1 ∧ !ls ∧ ld ∧ src.space ≤ 1 ∧ dst.space = 0 ∧ s.samePart c src.core then some .pull
  else none

/-- `XFR.CP` (R255). -/
def execXfrCp (core : CoreId) (ta : Ta) (ps pd n rt : Nat) (errs : List LineErr) (s : State) : Res :=
  if n = 0 then .next s
  else
    match s.place core ps n, s.place core pd n with
    | some src, some dst =>
      let j := s.xfrJob core (.xfrCp core ta ps pd n rt errs) [src.off, dst.off, dst.core, dst.space]
      let reads (port : Nat) (k : Nat) : List Acc := readAccs port (src.off + 64 * k) 1
      match s.copyRoute core src dst rt with
      | some .shelf => .next (s.addOps core (parts 5 j n (fun k => j.at_ + k) (reads 5)))
      | some .fromCabinet =>
        .next (s.addOps core (segOps 5 j.at_ (linesAt src.off n) ++
          parts 5 { j with offs := [src.off, dst.off, core, 2] } n (fun k => j.at_ + segLead + cabPace k) (fun _ => [])))
      | some .toCabinet => .next (s.addOps core (parts 5 j n (fun k => j.at_ + cabPace k) (reads 5)))
      | some .scheduled => .next (s.addOps core (parts 6 j n (fun k => j.at_ + 2 * k) (reads 6)))
      | some .push =>
        if 4 ≤ s.flowsOf core then .fault (.unpredictable .contract)
        else
          let (id, s) := s.startFlow core j.ctx.lane (flowLines src dst n) false none
          .next (s.addOps core (parts 5 { j with offs := [src.off, id, dst.core, 3] } n (fun k => j.at_ + flowPace * k) (reads 5)))
      | some .pull =>
        if 4 ≤ s.flowsOf core then .fault (.unpredictable .contract)
        else .next (s.startFlow core j.ctx.lane (flowLines src dst n) false (some src.core)).2
      | none => .fault (.unpredictable .contract)
    | _, _ => .fault (.unpredictable .address)

/-- Line `k` of an `XFR.CP`. The offsets of its job: source, destination (or flow), destination core, and the destination's space; 2 for a copy
from the cabinet, 3 for a flow. -/
def State.xfrCpPart (s : State) (c : CoreId) (accs : List Acc) (j : Job) (ta : Ta) (n : Nat) (errs : List LineErr) : State :=
  let src := j.offs.getD 0 0 + 64 * j.k
  let dst := j.offs.getD 1 0
  let far := j.offs.getD 2 0
  let kind := j.offs.getD 3 0
  if kind = 2 then
    s.addOps c [writeOp 5 (j.at_ + j.lat + cabPace j.k) spShelf (dst + 64 * j.k) (s.cabRd c src true) ta.fill]
  else if kind = 0 ∧ far ≠ c then
    let ((bs, _), s) := s.busRead c accs errs ta.src 6 src true
    let line : MeshLine := { src := c, core := far, space := spShelf, line := dst / 64 + j.k, data := bs, fill := ta.fill,
                             poison := s.poisoned c j.ctx.lane, lane := j.ctx.lane, last := decide (j.k + 1 = n) }
    s.inject 0 (.vc0 line) c far s.cyc (s.cycle c + 1)
  else
    let ((bs, _), s) := s.busRead c accs errs ta.src 5 src true
    if kind = 3 then s.inject 2 (.flowLine dst j.k bs (s.poisoned c j.ctx.lane)) c far s.cyc 0
    else if kind = 1 then s.addOps c [writeOp 5 (s.cycle c) spCabinet (dst + 64 * j.k) bs false]
    else s.addOps c [writeOp 5 (j.at_ + 1 + j.k) spShelf (dst + 64 * j.k) bs ta.fill]

/-- `XFR.GATHER` (R256): row `i` of the table at `PT`, i from the shelf word at `PI`. The index is checked as the instruction issues and read,
with what follows from it, in cycle c. -/
def execXfrGather (core : CoreId) (ta : Ta) (pi pt n pd rt : Nat) (errs : List LineErr) (s : State) : Res :=
  let io := s.ptrOff core pi
  let dst := s.ptrOff core pd
  if n = 0 then .next s
  else if shelfOk io 1 = false ∨ shelfOk dst n = false then .fault (.unpredictable .address)
  else
    match s.place core pt 0 with
    | none => .fault (.unpredictable .address)
    | some t =>
      let word := if shelfReadable io then (s.readLine core errs spShelf io).1 else zeroLine
      let off := t.off + 64 * leNat (word.take 4) * n
      if spaceSize t.space < off + 64 * n then .fault (.unpredictable .address)
      else if (rt = 0 ∧ t.core = core ∧ t.space ≤ 1) ∨ (rt = 1 ∧ t.core ≠ core ∧ t.space ≤ 1 ∧ s.samePart core t.core ∧ s.flowsOf core < 4) then
        let j := s.xfrJob core (.xfrGather core ta pi pt n pd rt errs) [io, dst, off, t.core, t.space]
        .next (s.addOps core [partOp 5 j.at_ j [{ port := 5, line := io / 64, wide := false }]])
      else .fault (.unpredictable .contract)

/-- A part of an `XFR.GATHER`: 0 reads the index and starts what follows, 1 + k moves line `k` of a local row. Where the index was a dropped
read the row is unpredictable (R175): free values. -/
def State.xfrGatherPart (s : State) (c : CoreId) (accs : List Acc) (j : Job) (ta : Ta) (n rt : Nat) (errs : List LineErr) : State :=
  let dst := j.offs.getD 1 0
  let off := j.offs.getD 2 0
  let from_ := j.offs.getD 3 0
  let space := j.offs.getD 4 0
  let written (k : Nat) (bs : Bytes) : Op := writeOp 5 (j.at_ + j.lat + cabPace k) spShelf (dst + 64 * k) bs ta.fill
  if j.k = 0 then
    let ((_, dropped), s) := s.busRead c accs errs .none 5 (j.offs.getD 0 0) false
    if dropped then
      (List.range n).foldl (fun s k =>
        let (f, s) := s.takeFree
        s.addOps c [written k (freeLine f)]) s
    else if rt = 1 then
      (s.startFlow c j.ctx.lane (flowLines { space := space, core := from_, off := off } { space := spShelf, core := c, off := dst } n)
        false (some from_)).2
    else
      s.addOps c ((if space = spCabinet then segOps 5 j.at_ (linesAt off n) else []) ++ (List.range n).map (fun k =>
        partOp 5 (j.at_ + (if space = spCabinet then segLead else 0) + cabPace k) { j with k := k + 1 } (if space = spShelf then readAccs 5 (off + 64 * k) 1 else [])))
  else
    let k := j.k - 1
    let (bs, s) :=
      if space = spCabinet then (s.cabRd c (off + 64 * k) true, s)
      else
        let ((bs, _), s) := s.busRead c accs errs .none 5 (off + 64 * k) true
        (bs, s)
    s.addOps c [written k bs]

/-! ## Drawer maps -/

/-- `XFR.MAPLOAD` (R257, R149): the record of each lane with a new occupant is fetched into the lane's place of the cache. -/
def execXfrMapload (core : CoreId) (ta : Ta) (asg pc l : Nat) (s : State) : Res :=
  let off := s.ptrOff core pc
  if 32 < l then .fault (.unpredictable .encoding)
  else if l = 0 then .next s
  else
    match s.asg core asg with
    | none => .fault (.unpredictable .contract)
    | some a =>
      if shelfOk off (l * a.stride) = false ∧ a.stride ≠ 0 then .fault (.unpredictable .address)
      else
        let fresh := (List.range l).filter (fun lane => entNew (s.sheetEnt core lane))
        let map (lane : Nat) : Nat := entMap (s.sheetEnt core lane)
        let j := s.xfrJob core (.xfrMapload core ta asg pc l) [off]
        let lines := (fresh.map (fun lane => (List.range a.stride).map (fun k => (lane * a.stride + k, a.recordAt (map lane) + 64 * k)))).flatten
        let s := s.updCore core (fun k => { k with
          maps := fresh.foldl (fun m lane => fset 0 m (asg * 32 + lane) (1 + map lane + 8192 * (off + 64 * lane * a.stride))) k.maps })
        .next (s.addOps core ((if fresh = [] then [] else segOpsAt 5 j.at_ (l * a.stride) (lines.map (fun x => (x.1, x.2 / 64)))) ++
          lines.map (fun x => partOp 5 (j.at_ + segLead + cabPace x.1) { j with k := x.1, offs := [off, x.2] } [])))

/-- A line of a map record fetched: line x of the instruction is in the shelf by c + F + ⌈3 (x + 1) / 5⌉. -/
def State.xfrMaploadPart (s : State) (c : CoreId) (j : Job) (ta : Ta) : State :=
  s.addOps c [writeOp 5 (j.at_ + j.lat + (3 * j.k + 2) / 5) spShelf (j.offs.getD 0 0 + 64 * j.k) (s.cabRd c (j.offs.getD 1 0) true) ta.fill]

/-- Slots on an assignment's free list: `ATT_SLOTS.FREE`. -/
def State.freeSlots (s : State) (c : CoreId) (n : Nat) : Nat := s.fld (s.sreg c (0x880 + n)) 15 0

/-- Cabinet offset of entry `j` of an assignment's free list; the top is the entry below the count (R150). -/
def freeEntry (n j : Nat) : Nat := 0x5600000 + 0x20000 * n + 2 * j

/-- Bytes of a slice as read through its lines. -/
def State.cabBytes (s : State) (c : CoreId) (off n : Nat) : Bytes :=
  (((List.range (ceilDiv (off % 64 + n) 64)).map (fun k => s.rdLine c spCabinet (off / 64 * 64 + 64 * k))).flatten.drop (off % 64)).take n

/-- Bytes of a map record changed in the cabinet and in the cached copies of map index `m` (R151, R156). -/
def State.putRecord (s : State) (c : CoreId) (n : Nat) (a : Asg) (m at_ : Nat) (bs : Bytes) (pc : Option Nat) : State :=
  let s := s.cabPatch c (a.recordAt m + at_) bs
  let cached := ((s.core c).maps.filter (fun p => decide (p.1 / 32 = n) && decide ((p.2 - 1) % 8192 = m))).map
    (fun p => (p.2 - 1) / 8192)
  let places := match pc with
    | some o => if cached.contains o then cached else o :: cached
    | none => cached
  places.foldl (fun s o => s.wr (wa spShelf c (o + at_)) bs) s

/-- A bit of a record's block mask cleared. -/
def State.clearMask (s : State) (c : CoreId) (n : Nat) (a : Asg) (m k : Nat) (pc : Option Nat) : State :=
  let at_ := 4 + 2 * a.kmax + k / 8
  let v := leNat (s.cabBytes c (a.recordAt m + at_) 1)
  s.putRecord c n a m at_ (natLe 1 (if v / 2 ^ (k % 8) % 2 = 1 then v - 2 ^ (k % 8) else v)) pc

/-! ## Lane state words over VC3 (R260) -/

/-- A lane state word sent to SCH over VC3. -/
def State.emitWord (s : State) (c : CoreId) (lane : Nat) : State :=
  match s.partOf c with
  | none => s
  | some p => s.sendVc3 c southHarbour (.laneState p c lane (s.laneWord c lane))

/-- A drawer opening that finds the free list empty (R157): counted, logged as an error, and the lane state word sent at once with
`KVX`. -/
def State.kvExhausted (s : State) (c : CoreId) (n lane m : Nat) : State :=
  let s := s.satFld (s.sreg c 0x88C) 23 16 1
  let s := s.log (s.siteRec c 1 255 0x88C n lane m)
  (s.setWordFlag c lane 4).emitWord c lane

/-! ## Scatter (R155 to R159, R258) -/

/-- The lines of a token slot within a drawer's payload, keys first (Table 5-4). -/
def tokLines (fmt t : Nat) : List Nat :=
  if fmt = 4 then [1 + t, 17 + t] else [1 + 2 * t, 2 + 2 * t, 33 + 2 * t, 34 + 2 * t]

/-- The scale bytes of a token slot. -/
def tokScales (t : Nat) : List Nat := [2 * t, 2 * t + 1, 32 + 2 * t, 33 + 2 * t]

/-- The tray lines that position `i` needs of a head: the header line and those of its slot. -/
def posLines (a : Asg) (w : Scatter) (h i : Nat) : List Nat :=
  (0 :: tokLines a.format i).map (fun l => w.tray + h * drawerBytes a.format + 64 * l)

/-- One tray slot copied into a token slot of a drawer (R155): payload lines, then its four scale bytes in the header line. `src` holds the
header line of the tray and the slot's lines. -/
def State.placeToken (s : State) (c : CoreId) (fmt : Nat) (src : List Bytes) (i dst t : Nat) : State :=
  let s := ((src.drop 1).zip (tokLines fmt t)).foldl (fun s p => s.cabPut c (dst + 64 * p.2) p.1) s
  let head := src.getD 0 zeroLine
  let new := ((tokScales i).zip (tokScales t)).foldl (fun h p => h.set p.2 (head.getD p.1 0)) (s.rdLine c spCabinet dst)
  s.cabPut c dst new

/-- A line of a tray: of a local one read from the shelf, of a remote one as its flow has brought it. -/
def State.trayLine (s : State) (c : CoreId) (w : Scatter) (errs : List LineErr) (a : Nat) : Bytes × State :=
  match w.flow with
  | none => if shelfReadable (waOff a) then s.readLine c errs spShelf (waOff a) else (zeroLine, s)
  | some id =>
    match s.flows.find? (fun f => decide (f.id = id)) with
    | some f => (((f.held.find? (fun p => decide (p.1 = a))).map Prod.snd).getD zeroLine, s)
    | none => (zeroLine, s)

/-- The drawer of a position is open, or opens now (R156): its slot. -/
def State.openDrawer (s : State) (c : CoreId) (w : Scatter) (a : Asg) (k : Nat) : State :=
  let free := s.freeSlots c w.asg
  let sl := leNat (s.cabBytes c (freeEntry w.asg (free - 1)) 2)
  let s := s.setFld (s.sreg c (0x880 + w.asg)) 15 0 (free - 1)
  let s := s.putRecord c w.asg a w.m (4 + 2 * k) (natLe 2 sl) (some w.pc)
  let s := s.clearMask c w.asg a w.m k (some w.pc)
  s.putRecord c w.asg a w.m 0 (natLe 2 (k + 1)) (some w.pc)

/-- A position of a scatter placed (R155 to R157): the drawer is opened where its local ordinal is the record's count. An ordinal that the
record cannot hold without a gap (R147) writes nothing. -/
def State.scatterPos (s : State) (c : CoreId) (w : Scatter) (i : Nat) (errs : List LineErr) : State :=
  match s.asg c w.asg with
  | none => s
  | some a =>
    let p := w.p0 + i
    let k := p / 16 / a.s
    let rec_ (s : State) : Bytes := ((List.range a.stride).map (fun l => s.rdLine c spShelf (w.pc + 64 * l))).flatten
    let cnt := mapCount (rec_ s)
    if cnt < k ∨ a.kmax ≤ k then s
    else if k < cnt ∨ s.freeSlots c w.asg ≠ 0 then
      let s := if k < cnt then s else s.openDrawer c w a k
      let sl := mapSlot (rec_ s) k
      (List.range a.h).foldl (fun s h =>
        let (src, s) := (posLines a w h i).foldl (fun (x : List Bytes × State) l =>
          let (bs, s) := x.2.trayLine c w errs l
          (x.1 ++ [bs], s)) ([], s)
        s.placeToken c a.format src i (a.drawerAt sl h) (p % 16)) s
    else s.kvExhausted c w.asg w.lane w.m

/-- Has a pull brought every line that a position needs? -/
def State.pulled (s : State) (a : Asg) (w : Scatter) (i : Nat) : Bool :=
  match w.flow with
  | none => true
  | some id =>
    match s.flows.find? (fun f => decide (f.id = id)) with
    | some f => (List.range a.h).all (fun h => (posLines a w h i).all (fun l => f.held.any (fun p => decide (p.1 = l))))
    | none => false

/-- The bound of a read flow's line `k` (R275 item 2). -/
def readBound (r : List Hop) (k : Nat) : Nat := 20 * routeH r + 56 * routeS r + 96 + 8 * k

/-- `XFR.SCATTER` (R258): the accepted positions whose drawers this core holds are placed; from a remote tray they are pulled over VC2
first. The count is read as the instruction issues. -/
def execXfrScatter (core : CoreId) (lane asg : Nat) (py : TrayPtr) (pc nb : Nat) (s : State) : Res :=
  let off := s.ptrOff core pc
  if 16 < nb ∨ 32 ≤ lane then .fault (.unpredictable .encoding)
  else if nb = 0 then .next s
  else
    match s.asg core asg with
    | none => .fault (.unpredictable .contract)
    | some a =>
      match s.place core py.ptr (a.h * drawerLines a.format) with
      | none => .fault (.unpredictable .address)
      | some t =>
        if shelfOk off a.stride = false ∨ t.space ≠ spShelf then .fault (.unpredictable .address)
        else
          let ent := s.sheetEnt core lane
          let m := entMap ent
          let cnt := if entKind ent = 3 then leNat (((s.laneWord core lane).drop 4).take 1) % 16 else entN ent
          let w : Scatter := { asg := asg, lane := lane, tray := wa t.space t.core t.off, pc := off, m := m, p0 := entPos0 ent }
          let mine := (List.range (Nat.min cnt nb)).filter (fun i => decide (a.shardOf m ((w.p0 + i) / 16) = a.shard))
          let lines := ((mine.map (fun i => ((List.range a.h).map (fun h => posLines a w h i)).flatten)).flatten).eraseDups
          if mine = [] then .next s
          else if t.core ≠ core ∧ (s.samePart core t.core = false ∨ 4 ≤ s.flowsOf core) then .fault (.unpredictable .contract)
          else
            let (flow, s) :=
              if t.core = core then (([] : List Nat), s)
              else
                let (id, s) := s.startFlow core lane (lines.map (fun l => { src := l, dst := 0 })) true (some t.core)
                ([id], s)
            let pull := if t.core = core then 1 else readBound (s.meshRoute core t.core) (lines.length - 1)
            let j := s.xfrJob core (.xfrScatter core lane asg py pc nb) ([w.tray, off, m, w.p0] ++ flow)
            let j := { j with lat := s.lat core 7 }
            .next (s.addOps core (mine.map (fun i => partOp 5 (j.at_ + pull + i * j.lat) { j with k := i } [])))

/-- The scatter that a job belongs to. -/
def Job.scatter (j : Job) (asg lane : Nat) : Scatter :=
  { asg := asg, lane := lane, tray := j.offs.getD 0 0, pc := j.offs.getD 1 0, m := j.offs.getD 2 0, p0 := j.offs.getD 3 0, flow := j.offs[4]? }

/-- A part of an `XFR.SCATTER`: position `k` begins, not for a voided lane (R159), and not before its lines are there; 64 + k completes it. -/
def State.xfrScatterPart (s : State) (c : CoreId) (j : Job) (lane asg : Nat) (errs : List LineErr) : State :=
  let w := j.scatter asg lane
  if 64 ≤ j.k then s.scatterPos c w (j.k - 64) errs
  else
    match s.asg c asg with
    | none => s
    | some a =>
      if s.wordFlag c lane 1 then s
      else if s.pulled a w j.k then s.addOps c [partOp 5 (s.cycle c + j.lat - 1) { j with k := 64 + j.k } []]
      else s.addOps c [partOp 5 (s.cycle c + 1) j []]

/-! ## Release (R151, R259) -/

/-- A map record as the cabinet holds it. -/
def State.mapRec (s : State) (c : CoreId) (a : Asg) (m : Nat) : Bytes := s.cabBytes c (a.recordAt m) (64 * a.stride)

/-- The release of a map index in one assignment (R151): its slots return to the top of the free list, the last first; the record is
emptied in the cabinet and in any cached copy. -/
def State.releaseMap (s : State) (c : CoreId) (n : Nat) (a : Asg) (m : Nat) : State :=
  let rec_ := s.mapRec c a m
  let cnt := Nat.min (mapCount rec_) a.kmax
  let free := s.freeSlots c n
  let s := s.cabPatch c (freeEntry n free) ((List.range cnt).map (fun j => natLe 2 (mapSlot rec_ (cnt - 1 - j)))).flatten
  let s := s.setFld (s.sreg c (0x880 + n)) 15 0 (free + cnt)
  let s := s.putRecord c n a m 0 [0, 0] none
  s.putRecord c n a m (4 + 2 * a.kmax) (List.replicate ((a.kmax + 7) / 8) 0) none

/-- The assignments of a mask. -/
def maskAsgs (amask : Nat) : List Nat := (List.range 8).filter (fun n => decide (amask / 2 ^ n % 2 = 1))

/-- The map indices that the current sheet lists for release. -/
def State.listed (s : State) (c : CoreId) : List Nat := (((List.range 32).map (fun l => s.sheetEnt c l)).filter entRelv).map entRel

/-- The slots that a release returns. -/
def State.returned (s : State) (c : CoreId) (amask : Nat) : Nat :=
  ((maskAsgs amask).map (fun n => match s.asg c n with
    | none => 0
    | some a => ((s.listed c).map (fun m => Nat.min (mapCount (s.mapRec c a m)) a.kmax)).sum)).sum

/-- `XFR.RELEASE` (R259): every map index that the current lane sheet lists, in each assignment of `AMASK`, done within 16 + 2E cycles. -/
def execXfrRelease (core : CoreId) (amask : Nat) (s : State) : Res :=
  let j := s.xfrJob core (.xfrRelease core amask) []
  .next (s.addOps core [partOp 5 (j.at_ + 15 + 2 * s.returned core amask) j []])

/-- A release carried out. -/
def State.xfrReleasePart (s : State) (c : CoreId) (amask : Nat) : State :=
  let maps := s.listed c
  (maskAsgs amask).foldl (fun s n =>
    match s.asg c n with
    | none => s
    | some a => maps.foldl (fun s m => s.releaseMap c n a m) s) s

/-! ## Messages and digests -/

/-- `XFR.SIGNAL` (R260): a VC3 message to the South harbour adds `ADD` to a sync counter. -/
def execXfrSignal (core : CoreId) (ctr add : Nat) (s : State) : Res :=
  if s.coreOk core then .next (s.sendVc3 core southHarbour (.sync ctr add)) else .fault (.unpredictable .address)

/-- `XFR.EMIT` (R260). -/
def execXfrEmit (core : CoreId) (lane : Nat) (s : State) : Res :=
  if 32 ≤ lane then .fault (.unpredictable .encoding) else .next (s.emitWord core lane)

/-- The digest record of a lane (R550), `vals` its 64 accumulations. -/
def State.digestRecord (s : State) (c : CoreId) (lane f : Nat) (vals : Bytes) : Bytes :=
  let k := s.core c
  let q := s.partAt c
  let ent := s.sheetEnt c lane
  let bases := fget [] k.digBase lane
  let tb := if bases = [] then (Config.freeWord f 0).toNat % 2 ^ 16 else bases.getD ((Config.freeWord f 0).toNat % bases.length) 0
  let mask := ((List.range 64).filter (fun i => decide (fget 0 k.digN (lane * 64 + i) ≠ 0))).foldl (fun a i => a + 2 ^ i) 0
  let isle := cIsle c
  let rel := (isle / s.gridCols - q.originRow) * s.gridCols + (isle % s.gridCols - q.originCol)
  let vals := if k.digBad.contains lane then
      ((List.range 64).map (fun i => natLe 8 (Config.freeWord64 f i).toNat)).flatten
    else vals
  natLe 2 tb ++ natLe 1 lane ++ natLe 1 (b2n (s.poisoned c lane) + 2 * b2n (s.wordFlag c lane 1)) ++ natLe 4 q.beat ++
    natLe 8 mask ++ natLe 4 (entPos0 ent) ++ natLe 2 (entMap ent) ++ natLe 1 rel ++ natLe 1 (cRow c * 16 + cCol c) ++
    natLe 8 (s.req (entMap ent)).user ++ List.replicate 32 0 ++ vals

/-- `XFR.DFLUSH` (R550): in 64 cycles the lane's slots are read and cleared, a line in every 8, and go to the digest ring as one record; with
digests disabled they are only cleared. -/
def execXfrDflush (core : CoreId) (lane : Nat) (s : State) : Res :=
  if 32 ≤ lane then .fault (.unpredictable .encoding)
  else
    let j := s.xfrJob core (.xfrDflush core lane) []
    .next (s.addOps core [partOp 5 (j.at_ + 7) j []])

/-- A digest record appended to the ring, by foreground writes in the last of the instruction's cycles (R550, R295). -/
def State.digestOut (s : State) (c : CoreId) (lane : Nat) (vals : Bytes) : State :=
  let r := s.coreRec c
  if (s.partAt c).digestsOn ∧ r.digRecords ≠ 0 then
    let (f, s) := s.takeFree
    let reg := s.sreg c 0x940
    let n := s.regN reg
    let bs := s.digestRecord c lane f vals
    let s := (List.range 9).foldl (fun s k => s.cabPut c (r.digBase + 576 * (n % r.digRecords) + 64 * k) (piece bs k)) s
    s.setRegN reg ((n + 1) % 2 ^ 32)
  else s

/-- Line `k` of a lane's digest accumulations; after the last the record is formed. -/
def State.xfrDflushPart (s : State) (c : CoreId) (j : Job) (lane : Nat) : State :=
  let off := 0x3F4000 + 512 * lane + 64 * j.k
  let got := j.got ++ s.rdLine c spShelf off
  let s := s.wrLine c spShelf off zeroLine
  if j.k < 7 then s.addOps c [partOp 5 (s.cycle c + 8) { j with k := j.k + 1, got := got } []]
  else
    (s.digestOut c lane got).updCore c (fun k => { k with
      digN := k.digN.filter (fun p => p.1 / 64 != lane), digU := k.digU.filter (fun p => p.1 / 64 != lane)
      digBase := fset [] k.digBase lane [], digBad := k.digBad.filter (fun l => l != lane) })

end Sys2Proof.Machine
end

