-- ==== Sys2Proof/Machine/Pipe.lean ====
section
/-!
DEFINITION. The cycles of a core (06_core_and_shelf.md R172 to R176; 07_scores_and_timing.md R197, R207; 08_instruction_reference.md R226): at
the end of a score cycle the operations of that cycle happen, reads before writes.
-/
namespace Sys2Proof.Machine

/-- A part of an instruction done, among the accesses `accs` of its cycle. -/
def State.runPart (s : State) (c : CoreId) (accs : List Acc) (j : Job) : State :=
  match j.instr with
  | .ctlPld _ ta pt _ _ errs => s.pldPart c accs j ta.src pt errs
  | .cimPre _ ta eng t mode _ _ errs => s.cimPrePart c accs j ta eng t mode errs
  | .cimOut _ ta eng t dest clr a _ corr unc => s.cimOutPart c j ta eng t dest clr a (lineErrs spAcc corr unc)
  | .attPass _ ⟨ta, errs⟩ lane asg h0 nh _ _ ql tray exp => s.attPassPart c accs j ta lane asg h0 nh ql tray exp errs
  | .attMerge _ ⟨ta, errs⟩ _ _ _ q norm exp lane => s.attMergePart c accs j ta q norm exp lane errs
  | .attGemv _ ⟨ta, errs⟩ _ fmt g w0 n a _ init h => s.attGemvPart c accs j ta fmt g w0 n a init h errs
  | .vecLd _ ta _ a _ corr unc => s.vecLdPart c accs j ta a (lineErrs spShelf corr unc)
  | .vecSt _ ta _ a _ errs => s.vecStPart c j ta a errs
  | .vecAlu _ ⟨ta, errs⟩ fn fmt a b x d _ bb => s.vecAluPart c j ta fn fmt a b x d bb errs
  | .vecTr _ ⟨ta, errs⟩ fn a b d _ => s.vecTrPart c j ta fn a b d errs
  | .vecXl _ ⟨ta, errs⟩ fn fmt a n d dw => s.vecXlPart c j ta fn fmt a n d dw errs
  | .vecQnt _ ⟨ta, errs⟩ fmt sf sm sc ef _ cs a _ nb j0 zh => s.vecQntPart c accs j ta fmt sf sm sc ef cs a nb j0 zh errs
  | .vecRope _ ⟨ta, errs⟩ a d _ _ _ _ => s.vecRopePart c j ta a d errs
  | .scan _ ⟨ta, errs⟩ _ a _ d n => s.scanPart c j ta a d n errs
  | .draw _ ⟨ta, _⟩ lane _ => s.drawPart c accs j ta lane
  | .verify _ ⟨ta, _⟩ lane => s.verifyPart c accs j ta lane
  | .xfrCp _ ta _ _ n _ errs => s.xfrCpPart c accs j ta n errs
  | .xfrGather _ ta _ _ n _ rt errs => s.xfrGatherPart c accs j ta n rt errs
  | .xfrMapload _ ta _ _ _ => s.xfrMaploadPart c j ta
  | .xfrScatter _ lane asg ⟨_, errs⟩ _ _ => s.xfrScatterPart c j lane asg errs
  | .xfrRelease _ amask => s.xfrReleasePart c amask
  | .xfrDflush _ lane => s.xfrDflushPart c j lane
  | _ => s

/-- Does a part write when it is done, so that it comes after the reads of its cycle? -/
def Job.writes (j : Job) : Bool :=
  match j.instr with
  | .draw .. => true
  | .verify .. => true
  | .xfrScatter .. => true
  | .xfrRelease .. => true
  | .xfrDflush .. => true
  | _ => false

/-- Does an operation read: is it a part that does not write? -/
def Op.reads (o : Op) : Bool :=
  match o.act with
  | .part j => !j.writes
  | _ => false

/-- An operation done. -/
def State.landOp (s : State) (c : CoreId) (accs : List Acc) (o : Op) : State :=
  match o.act with
  | .part j => s.runPart c accs j
  | .write space off data fill =>
    if space = spShelf then s.busWrite c accs fill o.port off data
    else if space = spCabinet then s.cabWr c off data (decide (o.port = 5))
    else s.bufWrite c fill o.port off data
  | .row eng t line es => s.accPut c eng t line es
  | .add eng t outs errs => s.addToRow c eng t outs errs
  | .ptr i v => s.setPtr c i v
  | .lead u f => s.updCore c (fun k => if u = 0 then { k with flA := f } else { k with flX := f })
  | .lane u ctx => s.updCore c (fun k => { k with units := fset {} k.units u ctx })
  | .item cause len => s.raiseItem c cause len
  | .segment lines => s.foreground c lines

/-- The operations that a core takes up to cycle `t`: those that meet a condition leave its list and are done in their order. -/
def State.landSome (s : State) (c : CoreId) (t : Nat) (accs : List Acc) (p : Op → Bool) : State :=
  let now := (s.core c).ops.filter (fun o => decide (o.at_ ≤ t) && p o)
  let s := s.updCore c (fun k => { k with ops := k.ops.filter (fun o => !(decide (o.at_ ≤ t) && p o)) })
  now.foldl (fun s o => s.landOp c accs o) s

/-- The accesses to the shelf of a core's operations of a cycle. -/
def Core.accsAt (k : Core) (t : Nat) : List Acc := ((k.ops.filter (fun o => decide (o.at_ ≤ t))).map (·.accs)).flatten

/-- The bays of the shelf that a list of accesses uses. -/
def baysOf (accs : List Acc) : List Nat := (List.range 4).filter (fun b => accs.any (fun a => decide (a.line % 4 = b)))

/-- The U-slots of a cycle of score time (R176): with the last cycle of a group the bays without one are noted. -/
def Core.noteSlots (k : Core) (t : Nat) (accs : List Acc) : Core :=
  let had := k.slots ++ (List.range 4).filter (fun b => !(baysOf accs).contains b && !k.slots.contains b)
  if t % 8 = 7 then { k with slots := [], missed := (List.range 4).filter (fun b => !had.contains b) } else { k with slots := had }

/-- A pull whose lines have all come and which no operation of its core needs any more is over. -/
def State.dropPulls (s : State) (c : CoreId) : State :=
  let ops := (s.core c).ops
  let needs (id : Nat) : Bool := ops.any (fun o => match o.act with
    | .part j => (match j.instr with
      | .xfrScatter .. => j.offs[4]? == some id
      | _ => false)
    | _ => false)
  if s.flows.any (fun f => f.pull && decide (f.core = c)) then
    { s with flows := s.flows.filter (fun f => !(f.pull && decide (f.core = c) && decide (f.lines.length ≤ f.done) && !needs f.id)) }
  else s

/-- THE END OF A SCORE CYCLE of a core (R172, R197): its reads see what stood before the cycle, then its writes take effect, arbitrated against
each other (R174). -/
def State.land (s : State) (c : CoreId) : State :=
  let t := s.cycle c
  let s := s.arriveDue c t
  let accs := (s.core c).accsAt t
  let s := s.landSome c t accs Op.reads
  let s := s.landSome c t accs Op.reads
  let s := s.landSome c t accs (fun _ => true)
  let s := s.updCore c (fun k => { (k.noteSlots t accs) with live := false })
  s.dropPulls c

end Sys2Proof.Machine
end

