-- ==== Sys2Proof/Machine/Shelf.lean ====
section
/-!
DEFINITION. Class U service of the shelf, code errors and the debug halt (06_core_and_shelf.md R176 to R190), and the code of score memory
(07_scores_and_timing.md R194, R195).
-/
namespace Sys2Proof.Machine

/-- The power state of a physical isle: `PWR_ISLE_STAT.STATE` (Table 16-10). -/
def State.isleState (s : State) (isle : Nat) : Nat := s.fld (rPwr (0x200 + isle)) 2 0

/-- Is a core's shelf at VL retention: is its isle parked (R179, R454)? -/
def State.retained (s : State) (c : CoreId) : Bool := s.isleState (s.physIsle (cIsle c)) == 3

/-- `SHF_HAZ_RESUME` (R186): a write of 1 to `SHF_HAZ.RESUME` completes the item of a debug halt. -/
def execShfHazResume (isle site : Nat) (s : State) : Res :=
  match s.coreAt isle site with
  | none => .next s
  | some c => .next (s.complete c 7)

/-- The place of a source in the round robin of R177 item 2. -/
def rrIndex : USrc → Nat
  | .sheet => 4
  | .vc3 => 0
  | .vc2 => 1
  | .isleCtl => 2
  | .host => 3

/-- Is an access's bay free in this cycle? An access outside the shelf uses no bay. -/
def bayFree (busy : List Nat) (u : UAcc) : Bool := u.space != spShelf || !busy.contains (u.off / 64 % 4)

/-- The first waiting access of a source. -/
def firstOf (q : List UAcc) (i : Nat) : Option UAcc := q.find? (fun u => rrIndex u.src == i)

/-- The access granted (R177): a lane-sheet delivery first, else the first source in round robin order whose first access finds its
bay free. -/
def uChoose (q : List UAcc) (rr : Nat) (busy : List Nat) : Option UAcc :=
  (4 :: (List.range 4).map (fun k => (rr + k) % 4)).findSome? (fun i =>
    match firstOf q i with
    | some u => if bayFree busy u then some u else none
    | none => none)

/-- The bays that class S uses in this core cycle: those of the operations of the current score cycle; none in a cycle in which the core does
not run (R178). -/
def State.busyBays (s : State) (c : CoreId) : List Nat := if (s.core c).live then baysOf ((s.core c).accsAt (s.cycle c)) else []

/-- The bays that a write-back of a corrected line takes or has taken in this cycle, ahead of every U source (R180 item 1). -/
def Core.wbBays (k : Core) (now : Nat) : List Nat :=
  (List.range 4).filter (fun b => k.wback.any (fun p => decide (p.2 % 4 = b)) || decide (fget 0 k.wbAt b = now + 1))

/-- A line of the next sheet has reached its core (R203). -/
def State.sheetArrived (s : State) (c : CoreId) : State :=
  match s.partOf c with
  | none => s
  | some p => s.updPart p (fun q => { q with sheetLeft := q.sheetLeft - 1 })

/-- Bytes written by a class U access (R115, R171, R184): the line becomes Full. A remote flow's write outside the windows of R187 is
discarded. -/
def State.uWrite (s : State) (c : CoreId) (u : UAcc) (bs : Bytes) : State :=
  if u.src = .vc2 ∧ u.space = spShelf ∧ shelfWritable u.off = false then s
  else
    let s :=
      if u.space = spAcc then s.accWrite c u.off bs
      else if bs.length = 64 ∧ u.off % 64 = 0 then s.wrLine c u.space u.off bs else s.wr (wa u.space c u.off) bs
    let s := if u.space = spShelf ∨ u.space = spBuf then s.setFull c u.space (u.off / 64) true else s
    if u.src = .sheet then s.sheetArrived c else s

/-- A line read by a class U access through its code. -/
def State.uRead (s : State) (c : CoreId) (errs : List LineErr) (space off : Nat) : Bytes × State :=
  if space = spAcc then s.accRead c errs off
  else if space = spScore then (s.rd (wa space c off) 64, s)
  else s.readLine c errs space off

/-- A core asks for line `k` of a flow from its own memory (R275, R296 item 2): from the shelf through the U port, where the line arrives in
core cycle `at_`, or from the cabinet as a background claim. -/
def State.flowAsk (s : State) (c : CoreId) (f : Flow) (k at_ : Nat) : State :=
  match f.lines[k]? with
  | none => s
  | some l =>
    if waSpace l.src = spCabinet then s.claim c { prio := 2, off := waOff l.src, kind := .flow f.id k }
    else s.updCore c (fun x => { x with uq := x.uq ++ [{ src := .vc2, space := spShelf, off := waOff l.src, act := .flow f.id k, at_ := at_ }] })

/-- Line `k` of a flow leaves a core for the core that reads it, with the lane's poison flag (R86); the next one is asked for (R275). -/
def State.flowSend (s : State) (c : CoreId) (id k : Nat) (bs : Bytes) (at_ : Nat) : State :=
  match s.flows.find? (fun f => decide (f.id = id)) with
  | none => s
  | some f => (s.inject 2 (.flowLine id k bs (s.poisoned c f.lane)) c f.core s.cyc 0).flowAsk c f (k + 1) (at_ + flowPace)

/-- Does a lane's view name a request? -/
def names (ent : Bytes) (entry : Nat) : Bool := entOcc ent && decide (entMap ent = entry)

/-- A class U access done. -/
def State.uPerform (s : State) (c : CoreId) (errs : List LineErr) (u : UAcc) : State :=
  let line := u.off / 64 * 64
  match u.act with
  | .write bs => s.uWrite c u bs
  | .read len rq =>
    let (bs, s) := s.uRead c errs u.space line
    s.send (.answer rq ((bs.drop (u.off % 64)).take len))
  | .flow id k =>
    let (bs, s) := if u.space = spShelf ∧ shelfReadable line = false then (zeroLine, s) else s.uRead c errs u.space line
    s.flowSend c id k bs u.at_
  | .void entry =>
    let lane := (u.off - wordOff 0) / 64
    if names (s.sheetEnt c lane) entry then (s.setWordFlag c lane 1).setFull c spShelf (u.off / 64) true else s

/-- `U_PORT_GRANT` (R177 to R179): one access in a core cycle goes into a U-slot of its bay. At VL retention nothing is granted. -/
def execUPortGrant (core : CoreId) (errs : List LineErr) (s : State) : Res :=
  let k := s.core core
  if s.retained core ∨ k.uAt = s.cyc + 1 then .next s
  else
    match uChoose (k.uq.filter (fun u => decide (u.at_ ≤ s.cyc))) k.urr (s.busyBays core ++ k.wbBays s.cyc) with
    | none => .next s
    | some u =>
      let rr := if rrIndex u.src < 4 then (rrIndex u.src + 1) % 4 else k.urr
      let s := s.setCore core { k with uq := k.uq.erase u, urr := rr, uAt := s.cyc + 1 }
      let wait := Nat.min (s.cyc - u.at_) 255
      let r := s.sreg core 0x892
      let s := s.setFld r 7 0 (Nat.max (s.fld r 7 0) wait)
      .next (s.uPerform core errs u)

/-- `SHELF_CORRECTED_WRITEBACK` (R180 item 1): the oldest corrected line of a bay is written back in a U-slot of its bay, one in a cycle. -/
def execShelfCorrectedWriteback (core : CoreId) (bay : Nat) (s : State) : Res :=
  let k := s.core core
  match k.wback.find? (fun p => decide (p.2 % 4 = bay)) with
  | none => .next s
  | some p =>
    if (s.busyBays core).contains bay ∨ fget 0 k.wbAt bay = s.cyc + 1 ∨ s.retained core then .next s
    else .next (s.setCore core { k with wback := k.wback.erase p, wbAt := fset 0 k.wbAt bay (s.cyc + 1) })

/-- `U_SLOT_GROUP_END` (R176, R190): a group in which a bay had no U-slot is counted, the first of a beat logged with its bay, the lowest one
where several had none (log entry 106). `bays` are the bays without one. -/
def execUSlotGroupEnd (core : CoreId) (bays : List Nat) (s : State) : Res :=
  match bays.min? with
  | none => .next s
  | some bay =>
    if (s.core core).missed ≠ bays then .next s
    else
      let s := s.updCore core (fun k => { k with missed := [] })
      let s := s.satFld (s.sreg core 0x892) 23 8 1
      .next (s.logOnce core 0x892 (s.siteRec core 2 255 0x892 bay 0 0))

/-- `SCORE_ECC_UNCORRECTABLE` (R195): a codeword of score memory as the sequencer reads it, with its error pattern. A correctable error is
corrected, written back and counted; an uncorrectable one is counted and logged as an error, and an item of cause 6 is declared before the
bundle issues. -/
def execScoreEccUncorrectable (core : CoreId) (read : ScoreRead) (s : State) : Res :=
  let r := s.sreg core 0x8A0
  if (s.core core).scoreBad.contains read.codeword ∨ 16384 ≤ read.codeword then .next s
  else
    match decodeErr read.err with
    | .clean => .next s
    | .bad =>
      let s := s.satFld r 31 16 1
      let s := s.log (s.siteRec core 1 255 0x8A0 read.codeword 0 0)
      let s := s.updCore core (fun k => { k with scoreBad := k.scoreBad ++ [read.codeword] })
      .next (s.declare core 6)
    | _ => .next (s.satFld r 15 0 1)

/-- `SCORE_CODEWORD_REWRITTEN` (R195 item 3): the isle controller writes the codeword from the layout image and the item completes. -/
def execScoreCodewordRewritten (core : CoreId) (codeword : Nat) (data : Bytes) (s : State) : Res :=
  if (s.core core).scoreBad.contains codeword = false ∨ s.icUp (s.physIsle (cIsle core)) = false then .next s
  else
    let s := s.wr (wa spScore core (64 * codeword)) (data.take 64)
    let s := s.updCore core (fun k => { k with scoreBad := k.scoreBad.filter (fun w => w != codeword) })
    .next (s.complete core 6)

end Sys2Proof.Machine
end

