-- ==== Sys2Proof/Machine/Cab.lean ====
section
/-!
DEFINITION. The cabinet (10_cabinet.md R289 to R312): refresh debts and collisions, foreground lines, background claims, the write buffer,
the retirement of rows.
-/
namespace Sys2Proof.Machine

/-- The cores a physical isle carries. -/
def State.coresOfIsle (s : State) (isle : Nat) : List CoreId :=
  match s.logicalIsle isle with
  | none => []
  | some l => (List.range 144).map (fun i => mkCore l (i / 12) (i % 12))

/-- The slices of a physical isle: those of its cores, and those of the sites that carry none. -/
def State.slicesOf (s : State) (isle : Nat) : List CoreId :=
  let own := s.coresOfIsle isle
  let used := own.map s.siteOf
  own ++ ((List.range 169).filter (fun st => !used.contains st)).map (bareSlice isle)

/-! ## Refresh (R298 to R300) -/

/-- The largest debt of a slice. -/
def Core.maxDebt (k : Core) : Nat := k.debts.foldl (fun m p => Nat.max m p.2) 0

/-- `REFRESH_DEBT_TICK` (R298): 6,250 core cycles have passed in an isle that is on or parked: every bank owes one more row, at most 8. -/
def execRefreshDebtTick (isle : Nat) (s : State) : Res :=
  if s.isleState isle ≠ 2 ∧ s.isleState isle ≠ 3 then .next s
  else
    .next ((s.slicesOf isle).foldl (fun s c =>
      let s := s.updCore c (fun k =>
        { k with debts := (List.range 16).foldl (fun m b => fset 0 m b (Nat.min 8 (fget 0 m b + 1))) k.debts })
      let r := s.sreg c 0x8C3
      s.setFld r 19 16 (Nat.max (s.fld r 19 16) (s.core c).maxDebt)) s)

/-- Is a bank of a slice still to serve a line: one in the write buffer, one of the foreground due in the next 32 cycles, or the line that the
fetch of a window rewrite waits for (R299)? -/
def State.bankBusy (s : State) (c : CoreId) (bank : Nat) : Bool :=
  let k := s.core c
  k.wbuf.any (fun l => decide (bankOf l = bank)) || k.bankDue bank ||
    (s.fetchWaits c && (s.fetchOff c).any (fun o => decide (bankOf (o / 64) = bank)))

/-- `BANK_REFRESH` (R299): a bank with a debt refreshes one row: no line is due in the bank and no claim is queued for it, or the debt is 4 or
more and only claims of priorities 3 to 6 are. -/
def execBankRefresh (core : CoreId) (bank : Nat) (s : State) : Res :=
  let k := s.core core
  let d := fget 0 k.debts bank
  let here := k.claims.filter (fun c => decide (bankOf (c.off / 64) = bank))
  if 16 ≤ bank ∨ d = 0 ∨ s.bankBusy core bank = true then .next s
  else if here = [] ∨ (4 ≤ d ∧ here.all (fun c => decide (3 ≤ c.prio))) then
    .next (s.setCore core { k with debts := fset 0 k.debts bank (d - 1) })
  else .next s

/-- Does a refresh of R300 run: is its core frozen and the item not lowered (R301)? -/
def State.refreshing (s : State) (c : CoreId) : Bool := (s.core c).frozen && s.outstanding c 2

/-- `COLLISION_REFRESH_DONE` (R300 items 3 and 4): 32 x D cycles after its core froze the port has refreshed every bank and lowers cause
2. -/
def execCollisionRefreshDone (core : CoreId) (s : State) : Res :=
  let k := s.core core
  if s.refreshing core && decide (k.frozenAt + 32 * k.maxDebt ≤ s.cyc) then
    .next ((s.setCore core { k with debts := [] }).complete core 2)
  else .next s

/-! ## Lines (R294 to R296, R303 to R306) -/

/-- `FOREGROUND_SEGMENT_LINE` (R294, R303, R304): a line that a segment request asked for arrives at its port and is checked; one that none
asked for does not come. -/
def execForegroundSegmentLine (core : CoreId) (line : Nat) (err : BitVec 544) (s : State) : Res :=
  if spaceSize spCabinet ≤ 64 * line then .fault (.unpredictable .address)
  else if (s.core core).due.any (fun d => decide (d.1 = line)) then .next (s.arrive core line err)
  else .next s

/-- Is a claim one of those that pause while the isle controller is down (R309)? -/
def ClaimKind.paused : ClaimKind → Bool
  | .scrub _ _ => true
  | .fill _ _ => true
  | .rowCopy => true
  | _ => false

/-- The patrol reads its next line (R305); a pass ends with the last line, and the corrected lines of R306 item 2 are
counted afresh. -/
def State.patrolRead (s : State) (c : CoreId) (err : BitVec 544) : State :=
  let line := (s.core c).patrol
  let s := s.cabCheck c line err 2
  if 64 * (line + 1) < spaceSize spCabinet then s.updCore c (fun k => { k with patrol := line + 1 })
  else s.updCore c (fun k => { k with patrol := 0, rowCorr := k.rowCorr.map (fun p => (p.1, 1)) })

/-- A write narrower than its line: the line is read, checked and written back; on an uncorrectable line it is discarded (R291, R304). -/
def State.narrowWrite (s : State) (c : CoreId) (off : Nat) (data : Bytes) (err : BitVec 544) : State :=
  let line := off / 64
  let s := s.cabCheck c line err 4
  if s.isBad c spCabinet (64 * line) then s else s.cabPatch c off data

/-- A claim served (R296): what it reads is checked, what it writes enters the write buffer. -/
def State.serve (s : State) (c : CoreId) (k : Claim) (err : BitVec 544) : State :=
  let line := k.off / 64
  match k.kind with
  | .flow id n =>
    match s.cabReach c k.off false with
    | none => s.flowSend c id n zeroLine s.cyc
    | some o =>
      let s := s.cabCheck c (o / 64) err 3
      s.flowSend c id n (s.rdLine c spCabinet o) s.cyc
  | .flowWrite data => s.cabPut c k.off data
  | .corrected => s
  | .scrub _ _ => s.cabCheck c line err 5
  | .fill _ _ => s.cabCheck c line err 5
  | .rowCopy => s
  | .write data => if data.length = 64 ∧ k.off % 64 = 0 then s.cabPut c k.off data else s.narrowWrite c k.off data err
  | .read len rq =>
    let s := s.cabCheck c line err 4
    s.send (.answer rq (((s.rdLine c spCabinet (64 * line)).drop (k.off % 64)).take len))
  | .park _ => s.cabCheck c line err 4
  | .restore _ data => s.cabPut c k.off data
  | .gate g =>
    let s := s.cabCheck c line err 4
    s.gateLine g (s.rdLine c spCabinet (64 * line))

/-- `BACKGROUND_CLAIM` (R296): a background slot, or a foreground slot left idle, serves the waiting claim of the highest priority, the
oldest of them; with none waiting, the patrol. The line that the fetch of a window rewrite waits for comes before every claim; a refresh of
R300 serves none. -/
def execBackgroundClaim (core : CoreId) (err : BitVec 544) (s : State) : Res :=
  let up := s.icUp (s.isleOf core)
  let k := s.core core
  if s.refreshing core ∨ s.fetchWaits core = true then .next s
  else
    match k.claims.find? (fun c => up || !c.kind.paused) with
    | some c => .next ((s.setCore core { k with claims := k.claims.erase c }).serve core c err)
    | none => if up then .next (s.patrolRead core err) else .next s

/-- `WRITE_BUFFER_DRAIN` (R295): the oldest buffered line drains to its bank; the buffer holds its lines through a refresh of R300 (R301). -/
def execWriteBufferDrain (core : CoreId) (s : State) : Res :=
  if s.refreshing core then .next s else .next (s.updCore core (fun k => { k with wbuf := k.wbuf.drop 1 }))

/-! ## Rows (R306 to R308) -/

/-- `ROW_RETIREMENT` (R307, R308): the copy of a row is complete, and its repair map entry switches to the spare row. -/
def execRowRetirement (core : CoreId) (bank row : Nat) (s : State) : Res :=
  let key := bank * 4096 + row
  let k := s.core core
  if k.rowWait.contains key = false ∨ s.icUp (s.isleOf core) = false ∨
      k.claims.any (fun c => c.kind == .rowCopy && decide (rowOf (c.off / 64) = row) && decide (bankOf (c.off / 64) = bank)) then .next s
  else
    let s := s.setCore core { k with
      rowWait := k.rowWait.filter (fun w => w != key)
      rowCorr := k.rowCorr.filter (fun p => !(decide (rowOf p.1 = row) && decide (bankOf p.1 = bank))) }
    let s := s.satFld (s.sreg core 0x8C4) 24 13 1
    let s := s.cabEvent core 1 3 (64 * (row * 512 + bank)) 0 bank
    let s := s.repLog { kind := 4, cause := 1, isle := s.isleOf core, site := s.siteOf core, element := row + 4096 * bank }
    .next (s.takeRow core bank row)

end Sys2Proof.Machine
end

