-- ==== Sys2Proof/Machine/Cal.lean ====
section
/-!
DEFINITION. Calibration, scrub, and the retirement of columns and arrays (02_exact_count_arrays.md R59 to R77, R240). A level that the
command does not list measures the full margin; a row that it does not list reads the stored bits.
-/
namespace Sys2Proof.Machine

/-- A column of an array. -/
def Arr.col (a : Arr) (i : Nat) : Col := fget {} a.cols i

/-- A column replaced. -/
def Arr.setCol (a : Arr) (i : Nat) (c : Col) : Arr := { a with cols := fset {} a.cols i c }

/-- Spares not in service, not out of use and not being filled. -/
def Arr.freeSpares (a : Arr) : List Nat :=
  (List.range 16).filter (fun k =>
    !(a.spareMap.any (fun p => decide (p.2 = k + 1))) && decide (a.spareBad / 2 ^ k % 2 = 0) &&
    (match a.fill with
     | some (_, sp, _) => decide (sp ≠ k)
     | none => true))

/-- The margin of a level (R62): 32 less the distance of the resolved position from the level, in 1/64 level; 0 from a distance of 32. -/
def levelMargin (m : LevelMeas) : Nat := 32 - ((m.pos : Int) - 64 * m.level).natAbs

/-- One level of one column measured (R62): the column's least margin so far in the round. -/
def Arr.measure (a : Arr) (m : LevelMeas) : Arr :=
  let c := a.col m.col
  if levelMargin m < c.least then a.setCol m.col { c with least := levelMargin m, leastAt := m.level } else a

/-- A column whose level lies below `RECAL` has its trims recomputed straight after the slot (R64 item 1). -/
def Arr.recal (recal : Nat) (a : Arr) (m : LevelMeas) : Arr :=
  if levelMargin m < recal then a.setCol m.col { a.col m.col with trims := (a.col m.col).trims + 1 } else a

/-- The start of a round: nothing measured yet. -/
def Arr.freshRound (a : Arr) : Arr :=
  { a with cols := a.cols.filterMap (fun p =>
      let c := { p.2 with least := 32, leastAt := 0 }
      if c = {} then none else some (p.1, c))
           measured := [] }

/-- Margin slot `j` (R61, R62, R64 item 1): levels 8j to 8j + 7; slot 8 measures level 64 and recomputes the trims of every column. -/
def Arr.marginSlot (a : Arr) (recal j : Nat) (ls : List LevelMeas) : Arr :=
  let a := if j = 0 then a.freshRound else a
  let mine := ls.filter (fun m => decide (m.level / 8 = j) && decide (m.level ≤ 64) && decide (m.col < 1072))
  let a := mine.foldl (Arr.recal recal) (mine.foldl Arr.measure a)
  { a with measured := if a.measured.contains j then a.measured else j :: a.measured
           trims := if j = 8 then a.trims + 1 else a.trims }

/-- The margins of a completed round take effect (R62): only when every level was measured in it. -/
def Arr.closeRound (a : Arr) : Arr :=
  if a.measured.length < 9 then a
  else
    { a with swept := true
             cols := a.cols.filterMap (fun p =>
               let c := { p.2 with margin := p.2.least, level := p.2.leastAt }
               if c = {} then none else some (p.1, c)) }

/-- The physical isle and site of an array's key. -/
def arrIsle (k : Nat) : Nat := k / 64 / 169
def arrSite (k : Nat) : Nat := k / 64 % 169

/-- The lines of an array's master copy that hold some rows (R92, R319): their cabinet offsets. -/
def State.masterLines (s : State) (c : CoreId) (n : Nat) (rows : List Nat) : List Nat :=
  match s.liveOf c, afmtOf (s.coreRec c).afmt n with
  | some slot, some f =>
    let img := (s.coreRec c).slotBase slot + arrOff (s.coreRec c).afmt n
    ((rows.map (fun r =>
      (List.range (wBursts f)).map (fun t => img + burstLine f (r / 64) t (1 + 64 * wBits f * (r % 64) / 512)))).flatten).eraseDups
  | _, _ => []

/-- The isle controller's background claims for master-copy lines (R296 item 4). -/
def State.masterClaims (s : State) (c : CoreId) (n : Nat) (rows : List Nat) (kind : ClaimKind) : State :=
  (s.masterLines c n rows).foldl (fun s off => s.claim c { prio := 4, off := off, kind := kind }) s

/-- `SPARE_COL_LOW` where an array has 2 or fewer spare columns left (R70); its record names the column that took or was the last one (log
entry 7). -/
def State.spareColLow (s : State) (k col : Nat) : State :=
  if (s.arr k).freeSpares.length ≤ 2 then s.cimEvent (arrIsle k) (arrSite k) 4 2 (k % 64) col else s

/-- A column must be retired (R69, R70): a free spare starts to fill, or with none left the array is retired; a free spare column itself
goes out of use. Only one fill of an array runs at a time: a second column waits for a later round (log entry 103). -/
def State.retireColumn (s : State) (k col : Nat) : State :=
  let a := s.arr k
  if 1056 ≤ col then
    if a.freeSpares.contains (col - 1056) then
      (s.setArr k { a with spareBad := a.spareBad + 2 ^ (col - 1056) }).spareColLow k col
    else s
  else
    match a.fill with
    | some _ => s
    | none =>
      match a.freeSpares.head? with
      | none => s.retireArray k
      | some sp =>
        (s.setArr k ({ a with fill := some (col, sp, 0), fillSkip := [] }.setCol col { a.col col with fill := true })).spareColLow k col

/-- The thresholds of `CIM_THR` applied to one column at the end of a round (R64 items 2 to 4, R76). -/
def State.colThresholds (s : State) (k col : Nat) : State :=
  let isle := arrIsle k
  let c := (s.arr k).col col
  let warn := s.fld (rIsle isle 0x801) 13 8
  let retire := Nat.max (s.fld (rIsle isle 0x801) 21 16) 4
  let s := if c.margin < warn then s.cimEvent isle (arrSite k) 0 2 (k % 64) col else s
  if c.margin < retire then
    let s' := s.setArr k ((s.arr k).setCol col { c with cand := true })
    if (c.cand || decide (c.margin < 4)) && decide (s.fld (rIsle isle 0x802) 2 2 = 1) && !c.fill then s'.retireColumn k col
    else s'
  else s.setArr k ((s.arr k).setCol col { c with cand := false })

/-- The end of a round (R64): thresholds on the margins of a round whose margin slots were all performed; the next round begins unmeasured. -/
def State.endRound (s : State) (k : Nat) : State :=
  let s :=
    if (s.arr k).measured.length < 9 then s
    else
      let s := s.updArr k Arr.closeRound
      ((s.arr k).cols.map Prod.fst).foldl (fun s col => s.colThresholds k col) s
  s.updArr k (fun a => { a with measured := [] })

/-- Bits of a number replaced by those of another where a mask is set. -/
def maskBits (old new mask : Nat) : Nat := (old - (old &&& mask)) + (new &&& mask)

/-- The physical column that carries a logical column (R68). -/
def Arr.physOf (a : Arr) (col : Nat) : Nat := match fget 0 a.spareMap col with
  | 0 => col
  | sp + 1 => 1056 + sp

/-- The cells that a switch leaves outside the logical columns (R37, R69): the column's old place keeps its bits, the spare's become logical. -/
def Arr.switchCells (a : Arr) (col sp : Nat) : FMap Nat :=
  let p := a.physOf col
  let rows := ((a.rows.map Prod.fst) ++ a.offCells.map Prod.fst).eraseDups
  rows.foldl (fun m r =>
    fset 0 m r (maskBits (fget 0 a.offCells r) (fget 0 a.rows r / 2 ^ col % 2 * 2 ^ p) (2 ^ p + 2 ^ (1056 + sp)))) []

/-- The switch of a column after its fill (R69 item 4): the spare carries the column's bits from now on. -/
def State.switchColumn (s : State) (k : Nat) : State :=
  let a := s.arr k
  match a.fill with
  | some (col, sp, 1024) =>
    let old := fget 0 a.spareMap col
    let a := { a with spareMap := fset 0 a.spareMap col (sp + 1), fill := none, fillSkip := [], offCells := a.switchCells col sp
                      spareBad := if old = 0 then a.spareBad else a.spareBad ||| 2 ^ (old - 1) }
    let s := s.setArr k (a.setCol col (a.col (1056 + sp)))
    (s.cimEvent (arrIsle k) (arrSite k) 1 3 (k % 64) col).repLog
      { kind := 3, cause := 1, isle := arrIsle k, site := arrSite k, element := (k % 64 + 64 * col) % 65536 }
  | _ => s

/-- The next rows of a fill (R69): two a slot; the rows that a rewrite wrote during the fill count as filled. -/
def fillRows (skip : List Nat) : Nat → Nat → Nat → List Nat × Nat
  | 0, _, row => ([], row)
  | fuel + 1, left, row =>
    if 1024 ≤ row then ([], 1024)
    else if skip.contains row then fillRows skip fuel left (row + 1)
    else
      match left with
      | 0 => ([], row)
      | left + 1 =>
        let (rs, e) := fillRows skip fuel left (row + 1)
        (row :: rs, e)

/-- Rows of an array written from the live master copy. -/
def State.writeRows (s : State) (c : CoreId) (k n : Nat) (rows : List Nat) : State :=
  let put (m : FMap Nat) (r : Nat) : FMap Nat := match s.liveRow c n r with
    | some v => fset 0 m r v
    | none => m
  s.updArr k (fun a => { a with rows := rows.foldl put a.rows })

/-- The spare's cells of the rows of a fill written (R69 item 1: a row write also writes the spare). -/
def Arr.fillCells (a : Arr) (col sp : Nat) (rows : List Nat) : FMap Nat :=
  rows.foldl (fun m r => fset 0 m r (maskBits (fget 0 m r) (fget 0 a.rows r / 2 ^ col % 2 * 2 ^ (1056 + sp)) (2 ^ (1056 + sp)))) a.offCells

/-- A scrub slot (R63, R69) of an array that serves logical array `n` of a core: a fill in progress takes it; else two of the rows found
different are rewritten, four array cycles each, and 8 rows are read and compared (log entry 103). -/
def State.scrubSlot (s : State) (c : CoreId) (k n i : Nat) (obs : List (Nat × Nat)) : State :=
  let a := s.arr k
  match a.fill with
  | some (col, sp, row) =>
    let (rs, e) := fillRows a.fillSkip 1100 2 row
    let s := s.masterClaims c n rs (.fill n row)
    let s := s.writeRows c k n rs
    s.updArr k (fun a => { a with fill := some (col, sp, e)
                                  offCells := a.fillCells col sp ((List.range e).filter (fun r => decide (row ≤ r))) })
  | none =>
    let fix := a.dirty.take 2
    let s := s.writeRows c k n fix
    let s := s.updArr k (fun a => { a with dirty := a.dirty.drop 2
                                           scrubFix := Nat.min (a.scrubFix + fix.length) (2 ^ 32 - 1) })
    let first := 8 * i
    let rows := (List.range 8).map (fun r => first + r)
    let s := s.masterClaims c n rows (.scrub n first)
    let seen (r : Nat) : Nat := match obs.find? (fun p => decide (p.1 = r)) with
      | some p => p.2
      | none => fget 0 (s.arr k).rows r
    let bad := rows.filter (fun r => (s.liveRow c n r).any (fun v => seen r != v))
    s.updArr k (fun a => { a with dirty := a.dirty ++ bad.filter (fun r => !a.dirty.contains r) })

/-- One calibration slot of a physical array (R61, R66, R69 item 4); `of` is the core and logical array that it serves, whose master copy the
scrub compares with. Slots that `CAL_EN` or `SCRUB_EN` leaves without a task pass all the same (log entry 103). -/
def State.roundSlot (s : State) (k : Nat) (of : Option (CoreId × Nat)) (levels : List LevelMeas) (rows : List (Nat × Nat)) : State :=
  let isle := arrIsle k
  let s := s.switchColumn k
  let i := (s.arr k).slot
  let margin := decide (i % 15 = 0) && decide (i / 15 ≤ 8)
  let s :=
    if margin then
      (if s.fld (rIsle isle 0x802) 0 0 = 1 then s.updArr k (fun a => a.marginSlot (s.fld (rIsle isle 0x801) 5 0) (i / 15) levels) else s)
    else
      match of with
      | some (c, n) => if s.fld (rIsle isle 0x802) 1 1 = 1 then s.scrubSlot c k n (i - Nat.min (i / 15 + 1) 9) rows else s
      | none => s
  let s := if i = 136 then s.endRound k else s
  s.updArr k (fun a => { a with slot := if i = 136 then 0 else i + 1 })

/-- Core cycles of a calibration slot: 8 array cycles (R59). -/
def calLen : Nat := 16

/-- One calibration slot of the array that serves logical array `n` of a core; none is performed while the isle controller restarts (R66). -/
def State.calSlot (s : State) (c : CoreId) (n : Nat) (obs : CalObs) : State :=
  let k := s.arrKey c n
  let s := s.updCore c (fun x => { x with calEnd := fset 0 x.calEnd n (s.cycle c + calLen), starved := x.starved.filter (· != n) })
  if s.icUp (arrIsle k) = false then s else s.roundSlot k (some (c, n)) obs.levels obs.rows

/-- `CIM.CAL` (R240): a calibration slot in every array `AMASK` selects in every engine `EMASK` selects. -/
def execCimCal (core : CoreId) (emask amask : Nat) (obs : List CalObs) (s : State) : Res :=
  let arrays := (List.range 48).filter (fun n =>
    decide (emask / 2 ^ (n / 8) % 2 = 1) && decide (amask / 2 ^ (n % 8) % 2 = 1))
  .next (arrays.foldl (fun s n =>
    s.calSlot core n ((obs.find? (fun o => decide (o.arr = n))).getD { arr := n, levels := [], rows := [] })) s)

/-- The gap of an array in core cycles of the running schedule since its last calibration slot, or since the schedule's start (R59, R60). -/
def State.calGap (s : State) (c : CoreId) (n : Nat) : Nat := (s.core c).clk - fget 0 (s.core c).calEnd n

/-- `CAL_STARVED` (R60): a gap above 4,096 array cycles of an array in use is raised as a warning with the site and the array, once. -/
def execCalStarved (isle site arr : Nat) (s : State) : Res :=
  let n := (s.arr ((isle * 169 + site) * 64 + arr)).logical
  match s.coreAt isle site with
  | none => .next s
  | some c =>
    if s.icUp isle = false ∨ 48 ≤ n ∨ s.calGap c n ≤ 2 * 4096 ∨ (s.core c).starved.contains n = true then .next s
    else .next ((s.updCore c (fun k => { k with starved := n :: k.starved })).cimEvent isle site 6 2 arr 0)

/-- A margin sweep measured at once: margin slots 0 to 8 and the trim update (R65). -/
def Arr.sweep (a : Arr) (recal : Nat) (ls : List LevelMeas) : Arr :=
  (List.range 9).foldl (fun a j => a.marginSlot recal j ls) a

/-- Do the waves of a weight operation rewrite a core's arrays now (R324)? -/
def State.rewriting (s : State) (c : CoreId) : Bool :=
  let q := s.partAt c
  match q.wop with
  | some w => (match w.waves with
    | wave :: _ => wave.contains (s.dirIdx q c)
    | [] => false)
  | none => false

/-- Has an array no scheduled slots (R65): it serves no layout, or its partition is suspended? An array whose weights are being written is
not calibrated (R324). -/
def State.unscheduled (s : State) (isle site arr : Nat) : Bool :=
  let a := s.arr ((isle * 169 + site) * 64 + arr)
  match s.coreAt isle site with
  | some c =>
    !s.rewriting c && (!(a.state == 0 || a.state == 3) || (s.partAt c).suspended != [] || (s.partOf c).isNone)
  | none => true

/-- `IC_CALIBRATION_ROUND` (R65): the slots up to the end of a round on an array without scheduled slots: margins, thresholds, and, where a live
master copy stands behind it, scrub and fills. -/
def execIcCalibrationRound (isle site arr : Nat) (obs : RoundObs) (s : State) : Res :=
  let k := (isle * 169 + site) * 64 + arr
  if s.icUp isle = false ∨ 50 ≤ arr ∨ s.unscheduled isle site arr = false then .next s
  else
    let n := (s.arr k).logical
    let of := if n < 48 then (s.coreAt isle site).map (fun c => (c, n)) else none
    .next ((List.range (137 - (s.arr k).slot)).foldl (fun (s : State) _ => s.roundSlot k of obs.levels obs.rows) s)

/-- A margin sweep of an array, and the thresholds on what it measured (R64, R65, R70). -/
def State.sweepArr (s : State) (k : Nat) (levels : List LevelMeas) : State :=
  (s.updArr k (fun a => a.sweep (s.fld (rIsle (arrIsle k) 0x801) 5 0) levels)).endRound k

/-- One margin sweep on every array of an isle (R65): the arrays that differ from their reset values, and those listed with a level off its
place; the others measure the full margin. -/
def State.sweepIsle (s : State) (isle : Nat) (sweeps : List ArrSweep) : State :=
  let keys := ((s.arrs.map Prod.fst).filter (fun k => arrIsle k = isle) ++
    (sweeps.filter (fun x => x.isle = isle && decide (x.site < 169) && decide (x.arr < 50))).map (fun x => (isle * 169 + x.site) * 64 + x.arr)).eraseDups
  keys.foldl (fun (s : State) k =>
    s.sweepArr k (((sweeps.find? (fun x => decide ((x.isle * 169 + x.site) * 64 + x.arr = k))).map ArrSweep.levels).getD [])) s

/-- `SPARE_ARRAY_REPLACED` (R72 items 3 and 4): the filled and swept spare takes over the retiring array's place in the array map; the
retired array is Retired and `ARRAY_RETIRED` is raised. `arr` is the retiring physical array, `levels` the spare's sweep. -/
def execSpareArrayReplaced (isle site arr : Nat) (levels : List LevelMeas) (s : State) : Res :=
  let sk := isle * 169 + site
  let k := sk * 64 + arr
  let a := s.arr k
  let spk := sk * 64 + spareOf a.logical
  let sp := s.arr spk
  match s.coreAt isle site with
  | none => .next s
  | some c =>
    if s.icUp isle = false ∨ 48 ≤ a.logical ∨ sp.state ≠ 2 ∨ sp.replaces ≠ some arr then .next s
    else
      let n := a.logical
      let (rows, scales) := match s.liveOf c with
        | some slot => (s.arrayImage c slot (s.coreRec c).afmt n).getD (sp.rows, sp.scales)
        | none => (a.rows, a.scales)
      let sp := ({ sp with rows := rows, scales := scales, state := 0, logical := n, replaces := none }.sweep (s.fld (rIsle isle 0x801) 5 0) levels).closeRound
      let s := s.setArr spk { sp with slot := a.slot, badWin := a.badWin }
      let s := s.setArr k { a with state := 4, logical := 63, fill := none }
      let s := { s with arrMap := fset 0 s.arrMap (sk * 64 + n) (spareOf n + 1) }
      let s := s.repLog { kind := 2, cause := 1, isle := isle, site := site, element := arr }
      .next (s.cimEvent isle site 2 3 arr 0)

end Sys2Proof.Machine
end

