-- ==== Sys2Proof/Machine/Weights.lean ====
section
/-!
DEFINITION. What swaps, loads, boundaries and recoveries share (11_weight_images_and_partitions.md R323 to R336; 09_straits_and_stall_wave.md
R283; 07_scores_and_timing.md R216, R217): the end of a weight operation, the rewrite of a core's arrays from a version slot, the
rewrite waves, the live-slot switch, the start pulse, the end of a partition.
-/
namespace Sys2Proof.Machine

/-! ## Status -/

/-- A weight operation ends (R336): its status and detail, and its record. -/
def State.wswEnd (s : State) (p op status detail : Nat) : State :=
  let s := s.updPart p (fun q => { q with wswStatus := status, wswDetail := detail })
  let q := s.part p
  s.log { cls := if 0x20 ≤ status then 1 else 3, source := 82, part := p, reg := 0x1004 + 8 * p
          a := op % 256 + status % 256 * 256 + detail % 65536 * 65536, b := q.tag, c := q.otag }

/-- `SCH_LOAD_STAT` of a partition (Table 7-10); the device has partitions 0 to 7. -/
def State.loadStat (s : State) (p status detail phase : Nat) : State :=
  if 8 ≤ p then s else s.setRegN (rSch (0xF00 + p)) (status % 256 + detail % 65536 * 256 + phase % 8 * 2 ^ 24)

/-- The committed values waiting for a partition take effect, in commit order (R511, R512). -/
def State.applyCommits (s : State) (p : Nat) : State :=
  let cs := (s.part p).commits
  (cs.foldl (fun s v => s.setReg v.1 v.2) s).updPart p (fun q => { q with commits := [] })

/-! ## Cores -/

/-- A core without its score's execution state; its slice, its uncorrectable lines, the class U accesses waiting and its tags stay. -/
def Core.idle (k : Core) : Core :=
  { tags := k.tags, wback := k.wback, uq := k.uq, urr := k.urr, bad := k.bad, badSyn := k.badSyn, debts := k.debts, wbuf := k.wbuf, claims := k.claims
    rowMap := k.rowMap, rowWait := k.rowWait, spareUsed := k.spareUsed, rowCorr := k.rowCorr, patrol := k.patrol, maps := k.maps, digN := k.digN
    digU := k.digU, digBase := k.digBase, digBad := k.digBad, acc := k.acc, accGen := k.accGen }

/-! ## Arrays rewritten from a slot (R324, R334) -/

/-- The weight formats of a slot's image: of the live slot or of the other one. -/
def State.afmtOfSlot (s : State) (c : CoreId) (slot : Nat) : Nat :=
  let q := s.partAt c
  if slot = q.liveSlot ∧ q.liveValid then (s.coreRec c).afmt else (s.coreRec c).afmtStaged

/-- The arrays that a slot's image uses. -/
def usedArrays (afmt : Nat) : List Nat := (List.range 48).filter (fun n => (afmtOf afmt n).isSome)

/-- Is a line of a window of an array image uncorrectable? -/
def State.badWindow (s : State) (c : CoreId) (img fmt w : Nat) : Bool :=
  (List.range (winLines fmt)).any (fun l => s.isBad c spCabinet (img + 64 * (w * winLines fmt + l)))

/-- The windows of logical array `n` whose master lines in a slot are uncorrectable. -/
def State.badWindows (s : State) (c : CoreId) (slot afmt n : Nat) : List Nat :=
  match afmtOf afmt n with
  | none => []
  | some f => (List.range 16).filter (s.badWindow c ((s.coreRec c).slotBase slot + arrOff afmt n) f)

/-- Does a slot of a core hold an uncorrectable line in an array image? -/
def State.slotBad (s : State) (c : CoreId) (slot afmt : Nat) : Bool :=
  (usedArrays afmt).any (fun n => s.badWindows c slot afmt n != [])

/-- One array rewritten from a slot: readable windows only; a window that cannot be read is left as it stands and the array is Suspect
(Table 11-5). A fill in progress is completed. -/
def State.rewriteArray (s : State) (c : CoreId) (slot afmt n : Nat) : State :=
  match s.arrayImage c slot afmt n with
  | none => s
  | some (rows, scales) =>
    let bad := s.badWindows c slot afmt n
    s.updArr (s.arrKey c n) (fun a =>
      { a with
        rows := if bad = [] then rows
                else (List.range 1024).foldl (fun m r =>
                  fset 0 m r (if bad.contains (r / 64) then fget 0 a.rows r else fget 0 rows r)) []
        scales := if bad = [] then scales
                  else a.scales.filter (fun p => bad.contains (p.1 / 1024)) ++ scales.filter (fun p => !bad.contains (p.1 / 1024))
        state := if bad ≠ [] then 3 else if a.state = 5 ∨ a.badWin ≠ [] then 0 else a.state
        logical := n
        fill := a.fill.map (fun f => (f.1, f.2.1, 1024))
        dirty := []
        badWin := bad })

/-- The arrays of a core that an image does not use report state 5 (R319). -/
def State.dropUnused (s : State) (c : CoreId) (afmt : Nat) : State :=
  (List.range 48).foldl (fun s n =>
    match afmtOf afmt n with
    | some _ => s
    | none => s.updArr (s.arrKey c n) (fun a => if a.state = 4 then a else { a with state := 5, logical := 63 })) s

/-- Every used array of a core rewritten from a slot. -/
def State.rewriteCore (s : State) (c : CoreId) (slot afmt : Nat) : State :=
  (usedArrays afmt).foldl (fun s n => s.rewriteArray c slot afmt n) (s.dropUnused c afmt)

/-! ## Waves (R326) -/

/-- The directory indices of the cores that rewrite at least one array from a slot, in ascending stage, then directory order. -/
def State.rewriters (s : State) (p slot : Nat) : List Nat :=
  let q := s.part p
  let all := (List.range (q.rows * q.cols * 144)).filter (fun i => s.afmtOfSlot (s.dirCore q i) slot ≠ 0)
  ((List.range (Nat.max q.stages 1)).map (fun st => all.filter (fun i => decide ((fget {} q.dir i : CoreRec).stage = st)))).flatten

/-- The headroom of R326 in W. -/
def State.headroom (s : State) : Int :=
  (s.fld (rPwr 1) 14 0 : Int) - (s.fld (rPwr 2) 14 0 : Int) - 1000

/-- `k` consecutive shares of a list, the first (length mod k) one longer than the others (R326 item 1). -/
def shares {α : Type} (k : Nat) (l : List α) : List (List α) :=
  let n := l.length / k
  let m := l.length % k
  (List.range k).map (fun j => (l.drop (j * n + Nat.min j m)).take (n + (if j < m then 1 else 0)))

/-- Is the power controller running? -/
def State.pwcUp (s : State) : Bool := s.fld (rSys 0x51) 1 0 == 0

/-- The start wave (R283): the beat begins D_max cycles after the pulse. -/
def State.startPulse (s : State) (p : Nat) : State :=
  s.updPart p (fun q =>
    { q with
      started := true, held := false, halted := false, startAt := some s.cyc, barrier := false, fwdAt := s.now, frameKeep := false })

/-- The start pulse that ends a weight swap's hold: the pause frames go on being counted (R448), unless a recovery had halted the partition. -/
def State.swapPulse (s : State) (p : Nat) : State :=
  let keep := (s.part p).begun && !(s.part p).halted
  (s.startPulse p).updPart p (fun q => { q with frameKeep := keep })

/-- Steps 5 and 6 of Table 11-4, when the serving scheduler runs and no recovery holds the partition: the live slot switches on every core at once, or after a reversion stays
(Table 11-5), and the root pulses `START`. The old slot becomes Rollback; after a first load it stays Empty. The arrays that the new version does
not use report state 5 on every core, those of cores that rewrote nothing included (R319). -/
def State.switchLive (s : State) (p : Nat) : State :=
  let q := s.part p
  match q.wop with
  | none => s
  | some w =>
    if s.schUp = false ∨ q.recovery.isSome then s.updPart p (fun q => { q with wop := some { w with step := 5, waves := [] } })
    else if let some i := w.reverting then
      ((s.updPart p (fun q => { q with wop := none, other := 0, otag := 0 })).wswEnd p w.op 0x28 i).swapPulse p
    else
      let s := q.dir.foldl (fun s r => s.dropUnused (s.dirCore q r.1) r.2.afmtStaged) s
      let s := s.updPart p (fun q =>
        { q with
          liveSlot := 1 - q.liveSlot, liveValid := true, other := if w.first then 0 else 3
          tag := q.otag, otag := if w.first then 0 else q.tag, wop := none
          dir := q.dir.map (fun r => (r.1, { r.2 with afmt := r.2.afmtStaged, afmtStaged := if w.first then 0 else r.2.afmt })) })
      (s.wswEnd p w.op 4 0).swapPulse p

/-- The source slot of a swap or rollback: the inactive one; a reversion reads the old live slot. -/
def Part.sourceSlot (q : Part) : Nat :=
  match q.wop with
  | some w => if w.reverting.isSome then q.liveSlot else 1 - q.liveSlot
  | none => 1 - q.liveSlot

/-- The rewrite begins (R326): with headroom and the power controller running, the waves are formed; else it waits for the controller's
next period. No core to rewrite: the switch follows at once. -/
def State.planWaves (s : State) (p : Nat) : State :=
  let q := s.part p
  match q.wop with
  | none => s
  | some w =>
    let l := s.rewriters p q.sourceSlot
    if l = [] then s.switchLive p
    else if s.pwcUp = false ∨ s.headroom ≤ 0 then s.updPart p (fun q => { q with wop := some { w with step := 3 } })
    else
      let h := s.headroom.toNat
      let k := Nat.max 1 ((3 * l.length + 2 * h - 1) / (2 * h))
      s.updPart p (fun q => { q with wop := some { w with step := 4, waves := (shares k l).filter (· != []) }, wswStatus := 3 })

/-- The sheet of the next beat taken back, with its lines on their way; the releases that it lists wait again. -/
def State.recallSheet (s : State) (p : Nat) : State :=
  let q := s.part p
  if q.sheet.isNone then s
  else
    let nb := if q.begun then q.beat + 1 else 0
    let back := (q.relOut.filter (fun x => decide (x.2 = nb))).map Prod.fst
    let s := { s with net := s.net.filter (fun l => match l.msg with
      | .vc3 (.sheetLine c _ _) => s.partOf c != some p
      | _ => true) }
    s.setPart p { q with sheet := none, sheetLeft := 0, history := q.history.drop 1, relQ := back ++ q.relQ
                         relOut := q.relOut.filter (fun x => decide (x.2 ≠ nb)) }

/-- Is a partition part of a pipeline over several devices: a follower, or a leader with followers (Tables 14-12, 14-13)? -/
def State.spansDevices (s : State) (p : Nat) : Bool :=
  s.fld (rCwy (0x40 + 2 * p)) 15 15 == 1 || (List.range 4).any (fun i => s.reg64 (rCwy (0x50 + 2 * p)) / 2 ^ (16 * i + 15) % 2 == 1)

/-- A partition is held for a weight operation (R326). The sheet built under the closed barrier is taken back: the next beat comes after the barrier
has opened and carries tokens again (R323 step 6). A sheet that other devices share stays. -/
def State.swapHold (s : State) (p : Nat) : State :=
  let s := if s.spansDevices p then s else s.recallSheet p
  (s.updPart p (fun q => { q with held := true })).planWaves p

/-! ## The end of a partition -/

/-- The requests of a partition: the entries that are not Free and name it. -/
def State.partReqs (s : State) (p : Nat) : List Nat :=
  (s.reqs.filter (fun r => decide (r.2.state ≠ 0) && decide (r.2.part = p))).map Prod.fst

/-- Is a group still in flight: in a stage's view, or sampled with its lane state word not yet handled? -/
def Part.flying (q : Part) (g : Group) : Bool := decide (q.beat + 1 < g.beat + Nat.max q.stages 1) || g.kind != 1 || g.lastp

/-- Has the partition a group in flight (R323 step 3)? -/
def State.inFlight (s : State) (p : Nat) : Bool := (s.part p).groups.any (s.part p).flying

/-- The remote flows of cores and the lines of scheduled data and of flows that are on their way to or for them are gone. -/
def State.dropTraffic (s : State) (cores : List CoreId) : State :=
  let gone := (s.flows.filter (fun f => cores.contains f.core)).map (·.id)
  { s with
    flows := s.flows.filter (fun f => !cores.contains f.core)
    net := s.net.filter (fun l => match l.msg with
      | .vc0 m => !cores.contains m.core
      | .request f => !gone.contains f
      | .flowLine f _ _ _ => !gone.contains f
      | .vc3 _ => true) }

/-- An unload completes (R333 item 3, R217, R534): isles, slots and layout cease to exist, a weight operation ends with `ABANDONED`, the
arrays report state 5. -/
def State.unloadDone (s : State) (p : Nat) : State :=
  let s := s.applyCommits p
  let q := s.part p
  let cores := s.partCores q
  let s := match q.wop with
    | some w => s.wswEnd p w.op 0x29 0
    | none => if q.staging.isSome then s.wswEnd p 1 0x29 0 else s
  let s := cores.foldl (fun s c =>
    let s := (List.range 48).foldl (fun s n =>
      s.updArr (s.arrKey c n) (fun a => if a.state = 4 then a else { a with state := 5, logical := 63 })) s
    s.updCore c Core.idle) s
  let s := s.dropTraffic cores
  let s := s.setPart p { wswStatus := (s.part p).wswStatus, wswDetail := (s.part p).wswDetail }
  let s := ((s.loadStat p 0 0 0).setReg64 (rSch (0xF08 + 2 * p)) 0).setFld (rTel (0x20 + p)) 1 1 0
  if s.devState == 8 && (List.range 8).all (fun i => !(s.part i).loaded) then s.enter 7 else s

end Sys2Proof.Machine
end

