-- ==== Sys2Proof/Machine/Grid.lean ====
section
/-!
DEFINITION. The repaired grid (01_organisation.md R24; 18_defects_spares_aging.md R481 to R485): where the logical isles and cores lie, the
spares left, and the moves to spare isles and spare sites.
-/
namespace Sys2Proof.Machine

/-! ## Isles of a row (R24, R484) -/

/-- The partition that holds a physical isle. -/
def State.partOfPhys (s : State) (isle : Nat) : Option Nat := (s.logicalIsle isle).bind s.partOfIsle

/-- Is a physical isle a spare that may be taken: outside the grid, not failed? -/
def State.spareIsle (s : State) (isle : Nat) : Bool := (s.logicalIsle isle).isNone && !s.isleFail.contains isle

/-- The free spare isles of a row. -/
def State.rowSpares (s : State) (row : Nat) : List Nat := ((List.range 10).map (fun k => row * 10 + k)).filter s.spareIsle

/-- The logical isles of a failed physical isle's row whose column moves when a spare replaces it (R24 item 4, R484 item 2): from the failed
one towards the spare. -/
def State.movedIsles (s : State) (isle spare : Nat) : List Nat :=
  let row := isle / 10
  let gc := s.gridCols
  ((List.range gc).map (fun k => row * gc + k)).filter (fun l =>
    let x := s.physIsle l
    if isle < spare then decide (isle ≤ x) && decide (x < spare) else decide (spare < x) && decide (x ≤ isle))

/-- May a spare replace a failed isle (R484 item 2): does every isle whose column would move belong to the failed partition or to none? -/
def State.spareUsable (s : State) (p : Option Nat) (isle spare : Nat) : Bool :=
  (s.movedIsles isle spare).all (fun l => match s.partOfIsle l with
    | some q => some q == p
    | none => true)

/-- The nearest usable spare of a row, the lower column on a tie. -/
def State.findSpare (s : State) (isle : Nat) : Option Nat :=
  let p := s.partOfPhys isle
  let far (x : Nat) : Nat := if x < isle then isle - x else x - isle
  ((s.rowSpares (isle / 10)).filter (s.spareUsable p isle)).foldl (fun b x => match b with
    | none => some x
    | some y => if far x < far y then some x else some y) none

/-! ## Sites of an isle (R481) -/

/-- The failed sites of a physical row. -/
def State.rowFails (s : State) (isle row : Nat) : Nat :=
  ((List.range 13).filter (fun k => fget 0 s.siteFail (isle * 169 + row * 13 + k) != 0)).length

/-- The physical rows with two or more failed sites. -/
def State.deadRows (s : State) (isle : Nat) : List Nat := (List.range 13).filter (fun r => decide (2 ≤ s.rowFails isle r))

/-- The retired row of an isle; 13 for none. -/
def State.retRow (s : State) (isle : Nat) : Nat := (s.deadRows isle).headD 13

/-- Can an isle present its 144 cores (R481 item 3)? -/
def State.absorbable (s : State) (isle : Nat) : Bool := decide ((s.deadRows isle).length ≤ 1)

/-- The site that carries the core at a logical row and column of an isle (R481). -/
def State.sitePlan (s : State) (isle row col : Nat) : Nat :=
  let r := if row < s.retRow isle then row else row + 1
  let fail := (List.range 13).find? (fun k => fget 0 s.siteFail (isle * 169 + r * 13 + k) != 0)
  match fail with
  | some f => r * 13 + (if col < f then col else col + 1)
  | none => r * 13 + col

/-- Is a row retired while another has a failed site already (`CORE_EXPOSED`)? -/
def State.exposed (s : State) (isle : Nat) : Bool :=
  let ret := s.retRow isle
  decide (ret < 13) && (List.range 13).any (fun r => r != ret && s.rowFails isle r == 1)

/-- The cores of a logical isle whose site would change: core, site now, site planned. -/
def State.coreMoves (s : State) (l : Nat) : List (CoreId × Nat × Nat) :=
  ((List.range 144).map (fun i =>
    let c := mkCore l (i / 12) (i % 12)
    (c, s.siteOf c, s.sitePlan (s.physIsle l) (i / 12) (i % 12)))).filter (fun m => m.2.1 != m.2.2)

/-- A core's slice and physical lines replaced by those of another: what lies above the site it moves to. -/
def Core.onSite (k there : Core) : Core :=
  { k with debts := there.debts, due := [], wbuf := there.wbuf, claims := there.claims, rowMap := there.rowMap, spareUsed := there.spareUsed
           rowCorr := there.rowCorr, rowWait := there.rowWait, patrol := there.patrol, bad := there.bad, badSyn := there.badSyn }

/-- What holds the slice of a site: the core there, or the site itself where it carries none. -/
def State.sliceAt (s : State) (isle site : Nat) : CoreId := (s.coreAt isle site).getD (bareSlice isle site)

/-- Slices go with their sites when cores move: each site's slice as `old` has it passes to what holds it now. -/
def State.reslice (s old : State) (sites : List (Nat × Nat)) : State :=
  sites.foldl (fun (s : State) x =>
    let from_ := old.sliceAt x.1 x.2
    let now := s.sliceAt x.1 x.2
    let s := s.updCore now (fun k => k.onSite (old.core from_))
    if 2 ^ 15 ≤ from_ ∧ from_ ≠ now then s.setCore from_ {} else s) s

/-- The moves of cores to new sites take effect. The accumulators of a moved core are undefined (R121). -/
def State.moveCores (s : State) (moves : List (CoreId × Nat × Nat)) : State :=
  let old := s
  let s := moves.foldl (fun (s : State) m => { s with coreMap := fset 0 s.coreMap m.1 (m.2.2 + 1) }) s
  let s := s.reslice old ((moves.map (fun m => (old.isleOf m.1, m.2.1))) ++ moves.map (fun m => (old.isleOf m.1, m.2.2)))
  moves.foldl (fun (s : State) m => s.updCore m.1 Core.loseAcc) s

/-- Every core of a logical isle placed as its physical isle's failures require. -/
def State.placeCores (s : State) (l : Nat) : State :=
  (List.range 144).foldl (fun (s : State) i =>
    let c := mkCore l (i / 12) (i % 12)
    { s with coreMap := fset 0 s.coreMap c (s.sitePlan (s.physIsle l) (i / 12) (i % 12) + 1) }) s

/-- Memory without the bytes of the cores of a logical isle. -/
def State.wipeIsle (s : State) (l : Nat) : State := { s with mem := s.mem.filter (fun c => !(cIsle (waCore c.1) == l)) }

/-- What a logical isle's cores hold moves with the physical isle to another logical isle: memory and cores. -/
def State.carryIsle (s old : State) (from_ dst : Nat) : State :=
  let cells := old.mem.filter (fun c => cIsle (waCore c.1) == from_)
  let s := { s.wipeIsle dst with mem := cells.foldl (fun m c => mput m (wa (waSpace c.1) (waCore c.1 % 256 + dst * 256) (waOff c.1)) [c.2]) (s.wipeIsle dst).mem }
  (List.range 144).foldl (fun (s : State) i => s.setCore (mkCore dst (i / 12) (i % 12)) (old.core (mkCore from_ (i / 12) (i % 12)))) s

/-- A spare replaces a failed isle (R484 items 2 and 3): the logical columns between them shift by one physical column. A logical isle whose
column moves finds what its new physical isle holds; the spare's memory is as the start left it. -/
def State.shiftIsles (s : State) (isle spare : Nat) : State :=
  let old := s
  let ls := s.movedIsles isle spare
  let next (l : Nat) : Nat := if isle < spare then l + 1 else l - 1
  let target (l : Nat) : Nat := if ls.contains (next l) then old.physIsle (next l) else spare
  let s := ls.foldl (fun (s : State) l => { s with isleMap := fset 0 s.isleMap l (target l + 1) }) s
  let s := ls.foldl (fun (s : State) l =>
    if ls.contains (next l) then s.carryIsle old (next l) l
    else (List.range 144).foldl (fun (s : State) i => s.setCore (mkCore l (i / 12) (i % 12)) { accGen := (s.core (mkCore l (i / 12) (i % 12))).accGen + 1 }) (s.wipeIsle l)) s
  let s := ls.foldl State.placeCores s
  s.reslice old (((old.cores.map Prod.fst).filter (fun c => old.isleOf c = isle || old.isleOf c = spare)).map (fun c => (old.isleOf c, old.siteOf c)))

/-! ## Strait edges (R485) -/

/-- The logical isle across an edge (0 north, 1 east, 2 south, 3 west); row 0 is the northernmost, column 0 the westernmost. -/
def State.across (s : State) (l edge : Nat) : Option Nat :=
  let gc := s.gridCols
  if edge = 0 then (if gc ≤ l then some (l - gc) else none)
  else if edge = 1 then (if l % gc + 1 < gc then some (l + 1) else none)
  else if edge = 2 then (if l / gc < 7 then some (l + gc) else none)
  else (if 0 < l % gc then some (l - 1) else none)

/-- The two ends of a strait edge: its isle with the edge, and the other isle with the opposite edge (R287). -/
def State.edgeEnds (s : State) (isle edge : Nat) : List (Nat × Nat) :=
  match (s.logicalIsle isle).bind (fun l => s.across l edge) with
  | some l => [(isle, edge), (s.physIsle l, (edge + 2) % 4)]
  | none => [(isle, edge)]

/-- Two isles of a rectangle that are neighbours across a failed edge: the logical isle at which it begins (R485 item 1). -/
def State.edgeBroken (s : State) (isles : List Nat) : Option Nat :=
  isles.find? (fun l => (List.range 4).any (fun e =>
    s.edgeFail.contains (s.physIsle l, e) && (s.across l e).any (fun m => isles.contains m)))

/-! ## Repair status -/

/-- `SYS_REP_STAT` without `LOG_BAD`. -/
def State.repStat (s : State) (status step part isle : Nat) : State :=
  s.setFld (rSys 0x41) 16 0 (status + 16 * step + 128 * (part % 8) + 1024 * isle)

/-- An event of Table 18-3 at an isle. -/
def State.repEvent (s : State) (isle bit cls part site a : Nat) : State := s.isleEvent isle 0x922 bit cls part site a 0 0

/-- An alarm event of Table 18-3: `CORE_FAILED` and `SLICE_LOST` raise alarm `CORE`. -/
def State.repAlarm (s : State) (isle bit part site a : Nat) : State :=
  (s.orReg (rIsle isle 0x922) (2 ^ bit)).alarm 2
    { cls := 0, source := isle, part := part, bit := bit, reg := 0x922, isle := isle, site := site, a := a }

/-- A load without its entry: its isles are free. -/
def State.dropLoad (s : State) (p : Nat) : State := { s with loads := s.loads.filter (fun l => l.part != p) }

/-- A load ends with a status, in the phase it has reached. -/
def State.failLoad (s : State) (l : LoadSt) (status detail : Nat) : State := (s.dropLoad l.part).loadStat l.part status detail l.phase

/-- Does a load hold a logical isle reserved (R215 step 1)? -/
def LoadSt.holds (l : LoadSt) (gc isle : Nat) : Bool :=
  decide (2 ≤ l.phase) && decide (l.row ≤ isle / gc) && decide (isle / gc < l.row + l.rows) && decide (l.col ≤ isle % gc) &&
    decide (isle % gc < l.col + l.cols)

/-- The load that has a logical isle reserved. -/
def State.loadAt (s : State) (isle : Nat) : Option LoadSt := s.loads.find? (fun l => l.holds s.gridCols isle)

/-- A failure or heat park of a physical isle ends a load that has it reserved (R216 items 2 and 3). -/
def State.abortLoad (s : State) (isle : Nat) : State :=
  match s.logicalIsle isle with
  | none => s
  | some l =>
    match s.loadAt l with
    | some ld => s.failLoad ld 0x1D isle
    | none => s

/-- A physical isle fails (R484): it is marked, its partition halts at once and its end under R484 is due, a load of its rectangle ends. -/
def State.failIsle (s : State) (isle cause : Nat) : State :=
  if s.isleFail.contains isle then s
  else
    let p := s.partOfPhys isle
    let s := { s with isleFail := s.isleFail ++ [isle] }.repLog { kind := 8, cause := cause, isle := isle, site := 255, element := 0 }
    let s := s.abortLoad isle
    match p with
    | some q => { s.haltPart q with isleDue := s.isleDue ++ [isle] }
    | none => s

/-- A channel has failed with no spare left (R485): with no partition at either end the edge is recorded; else the partition that stops on it
halts, and with `AUTO_ISLE` one of the two isles fails: the east or south one where its row has a usable spare. -/
def State.failEdge (s : State) (isle edge : Nat) : State :=
  let ends := s.edgeEnds isle edge
  let held := ends.filterMap (fun e => s.partOfPhys e.1)
  match held with
  | [] => { s with edgeFail := s.edgeFail ++ ends }
  | p :: _ =>
    let s := held.foldl State.haltPart s
    let pick : Nat × Nat := if edge = 1 ∨ edge = 2 then (((ends[1]?).map Prod.fst).getD isle, isle) else (isle, ((ends[1]?).map Prod.fst).getD isle)
    let usable (x : Nat) : Bool := (s.findSpare x).isSome
    let target := if usable pick.1 then pick.1 else pick.2
    if !usable pick.1 && !usable pick.2 then (s.repStat 4 0 p target).repEvent target 7 1 p 255 0
    else if s.fld (rSys 0x40) 1 1 = 1 then s.failIsle target 1
    else s.repStat 7 0 p target

end Sys2Proof.Machine
end

