-- ==== Sys2Proof/Machine/Wave.lean ====
section
/-!
DEFINITION. The stall wave, beats and pauses (09_straits_and_stall_wave.md R278 to R284; 07_scores_and_timing.md R198 to R203;
16_power_delivery.md R448, R449). The condition of each event is part of its meaning: an event whose condition does not hold changes
nothing.
-/
namespace Sys2Proof.Machine

/-! ## Levels at the root (R279) -/

/-- Is an item's level present at the root in a cycle? -/
def State.itemAtRoot (s : State) (q : Part) (i : Item) (t : Nat) : Bool :=
  let d := s.dist q i.core
  decide (i.up + d ≤ t) && (match i.down with
    | some x => decide (t < x + d)
    | none => true)

/-- The level of a cause at the root. -/
def State.causeAt (s : State) (q : Part) (cause t : Nat) : Bool :=
  q.items.any (fun i => decide (i.cause = cause) && s.itemAtRoot q i t)

/-- BUSY at the root (R279 item 3). -/
def State.busyAt (s : State) (q : Part) (t : Nat) : Bool := q.items.any (fun i => s.itemAtRoot q i t)

/-- The RUN level a core at distance `d` sees in a cycle: the last wave that has reached it. -/
def Part.runAt (q : Part) (d t : Nat) : Bool :=
  match q.waves.find? (fun w => decide (w.1 + d ≤ t)) with
  | some w => w.2
  | none => true

/-- Does a core's items include an open one of a cause? -/
def Part.openItem (q : Part) (cause : Nat) : Bool := q.items.any (fun i => decide (i.cause = cause) && decide (i.down = none))

/-- Is the next sheet in place: handed to the root and in every core (R203)? -/
def Part.sheetReady (q : Part) : Bool := q.sheet.isSome && decide (q.sheetLeft = 0)

/-- `STALL_ITEM_COMPLETE` (R279 item 1): a unit lowers its cause level. A lane-sheet item completes once the next sheet is in place. The other
items end with their unit's own work: re-conversions and pauses after a time known when they are raised, strait retries as their flit is
delivered, rewrites, refresh collisions, score-memory errors and debug halts by commands of their own. -/
def execStallItemComplete (core : CoreId) (cause : Nat) (s : State) : Res :=
  if cause = 4 ∧ (s.partAt core).sheetReady = true then .next (s.complete core 4) else .next s

/-- `STOP` (R279 item 4): two cycles after BUSY appears the root drives RUN low and counts the stall. While the partition is held nothing runs that
could be stopped (R327). -/
def execStop (part : Nat) (s : State) : Res :=
  let q := s.part part
  if q.loaded && q.run && !q.held && decide (2 ≤ s.cyc) && s.busyAt q (s.cyc - 2) then
    let s := s.setPart part { q with run := false, waves := (s.cyc, false) :: q.waves }
    .next (s.sat32 (rSch (0xF20 + part)) 1)
  else .next s

/-- `GO` (R279 item 5): two cycles after BUSY disappears the root drives RUN high. -/
def execGo (part : Nat) (s : State) : Res :=
  let q := s.part part
  if q.loaded && !q.run && decide (2 ≤ s.cyc) && !s.busyAt q (s.cyc - 2) then
    .next (s.setPart part { q with run := true, waves := (s.cyc, true) :: q.waves })
  else .next s

/-- An event of `NET_EVENT` at a core site (R288); its record once in a beat for each kind and site. -/
def State.netEvent (s : State) (c : CoreId) (bit cls : Nat) : State :=
  let s := s.orReg (rIsle (s.physIsle (cIsle c)) 0x8B5) (2 ^ bit)
  s.logOnce c (0x8B50 + bit) (s.siteRec c cls bit 0x8B5 0 0 0)

/-- A wave wire of a core's router was outvoted (R278 item 3). -/
def State.waveVote (s : State) (c : CoreId) (outvoted : Bool) : State := if outvoted then s.netEvent c 4 2 else s

/-- Has the STOP wave reached a core that still runs? -/
def State.freezeDue (s : State) (c : CoreId) : Bool :=
  let q := s.partAt c
  q.loaded && !(s.core c).frozen && !q.runAt (s.dist q c) s.cyc

/-- Has the GO wave reached a frozen core? -/
def State.resumeDue (s : State) (c : CoreId) : Bool :=
  let q := s.partAt c
  (s.core c).frozen && q.runAt (s.dist q c) s.cyc

/-- `CORE_FREEZE` (R279 item 6): the STOP wave reaches the core; `wave.outvoted` says that one of its three wires disagreed (R278). -/
def execCoreFreeze (wave : WaveAt) (s : State) : Res :=
  let s := s.waveVote wave.core wave.outvoted
  if s.freezeDue wave.core then .next (s.updCore wave.core (fun k => { k with frozen := true, frozenAt := s.cyc })) else .next s

/-- `CORE_RESUME` (R279 item 6): the GO wave reaches the core. -/
def execCoreResume (wave : WaveAt) (s : State) : Res :=
  let s := s.waveVote wave.core wave.outvoted
  if s.resumeDue wave.core then .next (s.updCore wave.core (fun k => { k with frozen := false })) else .next s

/-- `START` (R283): the root pulses START; score cycle 0 begins D_max cycles later. -/
def execStart (part : Nat) (s : State) : Res :=
  let q := s.part part
  if q.loaded && q.liveValid && q.wop.isNone && (q.held || q.halted || !q.started) && q.recovery.isNone && !q.unloading then
    .next (s.startPulse part)
  else .next s

/-! ## The beat boundary (R201) -/

/-- The beat record of the trace ring (R547). -/
def State.traceBeat (s : State) (p : Nat) : State :=
  let q := s.part p
  let root := s.rootOf q
  let r := s.coreRec root
  if s.fld (rTel (0x28 + p)) 0 0 = 0 ∨ r.trcRecords = 0 then s
  else
    let n := s.regN (s.sreg root 0x941)
    let occ := (List.range 32).foldl (fun m l => if entOcc (s.sheetEnt root l) then m + 2 ^ l else m) 0
    let rec_ := natLe 8 q.beat ++ natLe 1 q.variant ++ natLe 1 q.appliedDuty ++ natLe 2 0 ++ natLe 4 occ ++ natLe 8 q.stallBeat ++
      natLe 4 (s.regN (rSch (0xF20 + p))) ++ List.replicate 36 0
    let s := s.claim root { prio := 5, off := r.trcBase + 64 * (n % r.trcRecords), kind := .write rec_ }
    s.setRegN (s.sreg root 0x941) ((n + 1) % 2 ^ 32)

/-- The two lane-sheet areas swap roles for a lane: the lines with their tags and codewords (R201 item 1). -/
def State.swapSheet (s : State) (c : CoreId) (lane : Nat) : State :=
  let x := sheetOff lane
  let y := nextSheetOff lane
  let (a, b) := (s.rd (wa spShelf c x) 64, s.rd (wa spShelf c y) 64)
  let (ba, bb) := (s.isBad c spShelf x, s.isBad c spShelf y)
  let (fa, fb) := (s.full c spShelf (x / 64), s.full c spShelf (y / 64))
  let s := (s.wrLine c spShelf x b).wrLine c spShelf y a
  let s := if bb then s.markBad c spShelf x else s
  let s := if ba then s.markBad c spShelf y else s
  (s.setFull c spShelf (x / 64) fb).setFull c spShelf (y / 64) fa

/-- A lane state word as its beat begins (Table 12-2): `VOID` and the map index of the lane's view. -/
def freshWord (ent : Bytes) (void : Bool) : Bytes :=
  List.replicate 5 0 ++ natLe 1 (2 * b2n (entVoid ent || void)) ++ List.replicate 2 0 ++ natLe 2 (entMap ent) ++ List.replicate 54 0

/-- What a core does at a beat boundary (R201, R223, R235, Table 12-2): the sheet areas swap roles, the registers of its sequencer are
cleared, the lane state words start afresh, the first bundle of the variant's body is due. -/
def State.coreBoundary (s : State) (c : CoreId) : State :=
  let s := (List.range 32).foldl (fun s l => s.swapSheet c l) s
  let void := (s.core c).voidNext
  let s := (List.range 32).foldl (fun (s : State) l => s.wrLine c spShelf (wordOff l) (freshWord (s.sheetEnt c l) (void.contains l))) s
  let v := entVariant (s.sheetEnt c 0)
  s.updCore c (fun k =>
    { k with pts := [], lcs := [], flA := 16, flX := 16, loops := [], poison := 0, logged := [], voidNext := [], draws := []
             next := (s.coreRec c).ventry.getD v 0, nextAt := 0 })

/-- The cycle of score time in which a partition's current beat began. -/
def Part.base (q : Part) : Nat := q.total - q.score

/-- Does a start pulse that starts the count of frames wait for its beat (R448)? -/
def Part.firstFrame (q : Part) : Bool := q.startAt.isSome && !q.frameKeep

/-- The beat begins (R201, R283): commits, debug mode and digests take effect, every core starts the body of the new sheet's variant. After a start
pulse the cores begin in step. -/
def State.beginBeat (s : State) (p : Nat) : State :=
  let s := if s.devState = 7 then s.enter 8 else s
  let q := s.part p
  let s := if q.startAt.isSome then (s.partCores q).foldl (fun s c => s.updCore c (fun k => { k with clk := q.total, frozen := false })) s else s
  let s := (s.partCores (s.part p)).foldl State.coreBoundary s
  let s := (s.applyCommits p).applyDebug p
  let root := s.rootOf (s.part p)
  let first := (s.part p).firstFrame
  let v := entVariant (s.sheetEnt root 0)
  let s := s.updPart p (fun q =>
    { q with
      beat := if q.begun then q.beat + 1 else 0, begun := true, variant := v, score := 0, stallBeat := 0, startAt := none
      frameStart := if first then s.cyc else q.frameStart, sheet := none, sheetLate := false
      digestsOn := decide (s.fld (rTel (0x20 + p)) 0 0 = 1) && !q.noMap })
  s.setFld (rSch (0x150 + p)) 2 0 v

/-- `BEAT_BOUNDARY` (R201, R323 steps 1 and 3, R333): at the end of a beat, or D_max cycles after a start pulse. A partition whose swap is
drained is held; one whose unload has released every request ends; else the next beat begins. A beat waits while the partition is
stalled or its sheet is not in place. Every core has come to the boundary when its root has: none is behind the root (R283). -/
def execBeatBoundary (part : Nat) (s : State) : Res :=
  let q := s.part part
  let ended := decide (q.startAt = none) && q.begun && decide (q.beatLen.getD q.variant 0 ≤ q.score)
  let begins := match q.startAt with
    | some t => decide (t + q.dmax ≤ s.cyc)
    | none => false
  if !q.loaded || !q.started || q.held || q.halted || !q.run || !q.sheetReady || !(ended || begins) then .next s
  else
    let s := if ended then s.traceBeat part else s
    if q.unloading && (s.partReqs part).isEmpty then .next (s.unloadDone part)
    else
      match q.wop with
      | some w =>
        if w.step ≤ 2 ∧ ended then
          if s.inFlight part = false then
            .next ((s.applyCommits part).swapHold part)
          else .next ((s.updPart part (fun q => { q with barrier := true, wop := some { w with step := 2 } })).beginBeat part)
        else .next (s.beginBeat part)
      | none => .next (s.beginBeat part)

/-- The bound within which a sheet reaches every core of a partition (R203, Table 9-3): that of the farthest corner. -/
def State.sheetBound (s : State) (q : Part) : Nat :=
  let isles := s.partIsles q
  let corner (isle : Nat) : List CoreId := [mkCore isle 0 0, mkCore isle 0 11, mkCore isle 11 0, mkCore isle 11 11]
  let ends := [isles.headD 0, isles.getD (q.cols - 1) 0, isles.getD (isles.length - q.cols) 0, isles.getLastD 0]
  ((ends.map corner).flatten).foldl (fun m c =>
    let r := s.meshRoute (s.rootOf q) c
    Nat.max m (10 * routeH r + 28 * routeS r + 8 * q.lanes + 24)) 0

/-- `LANE_SHEET_INCOMPLETE` (R203): the root has not received the sheet in the last cycle from which its distribution can finish W cycles before
the boundary; or the boundary is two cycles away and the sheet is not in place, and the root raises cause 4, so that the partition stalls from the
boundary. -/
def execLaneSheetIncomplete (part : Nat) (s : State) : Res :=
  let q := s.part part
  let t := q.beatLen.getD q.variant 0
  if !q.loaded || !q.begun || q.held || q.halted || q.startAt.isSome || !q.run || q.openItem 4 || q.sheetReady then .next s
  else if t ≤ q.score + 2 then .next (s.declare (s.rootOf q) 4)
  else if q.sheet.isNone && decide (t ≤ q.score + (2 * q.dmax + 16) + s.sheetBound q) then .next (s.setPart part { q with sheetLate := true })
  else .next s

/-! ## Pauses (R448, R449) -/

/-- The physical isles of a partition; none where it is not loaded. -/
def State.partPhys (s : State) (p : Nat) : List Nat :=
  let q := s.part p
  if q.loaded then (s.partIsles q).map s.physIsle else []

/-- Does a hardware pause hold a partition (R447, R451)? -/
def State.hwPaused (s : State) (p : Nat) : Bool :=
  let isles := s.partPhys p
  s.pw.hw.any (fun c => if c < 100 then isles.contains c else if c < 200 then isles.any (fun i => decide (i / 10 + 100 = c)) else !isles.isEmpty)

/-- A partition's thermal duty (R470): the largest of hardware and forecast duties over the isles it touches. -/
def State.tduty (s : State) (p : Nat) : Nat :=
  (s.partPhys p).foldl (fun m i => Nat.max m (Nat.max (s.fld (rThm (0x100 + i)) 19 15) (s.fld (rThm (0x100 + i)) 23 20))) 0

/-- The duty that the next frame takes (R449, R454): the largest of the power duty, the thermal duty and 16 under a hardware pause or a
suspension. -/
def State.duty (s : State) (p : Nat) : Nat :=
  if s.hwPaused p || (s.part p).suspended != [] then 16 else Nat.max (s.fld (rPwr (0x20 + p)) 9 5) (s.tduty p)

/-- The paused slots of a frame at duty `d` (R448). -/
def pausedOf (d : Nat) : List Nat := (List.range 16).filter (fun j => decide (j * d / 16 < (j + 1) * d / 16))

/-- Cycles of a pause frame. -/
def frameLen : Nat := 32768

/-- `PAUSE_FRAME` (R448): W cycles before a frame begins the root fixes its duty and its paused slots. W cycles before
the first frame after a start pulse no pulse has gone out yet: that frame's duty is fixed three cycles before it (log entry 99). -/
def execPauseFrame (part : Nat) (s : State) : Res :=
  let q := s.part part
  let w := 2 * q.dmax + 16
  if q.loaded && q.firstFrame && q.startAt.any (fun t => decide (s.cyc + 3 = t + q.dmax)) then
    let d := s.duty part
    let s := s.setPart part { q with appliedDuty := d, pausedSlots := pausedOf d, frameStart := s.cyc + 3 }
    .next (s.setFld (rPwr (0x20 + part)) 4 0 d)
  else if q.loaded && q.begun && decide (q.frameStart ≤ s.cyc + w) && decide ((s.cyc + w - q.frameStart) % frameLen = 0) then
    let d := s.duty part
    let s := s.setPart part { q with appliedDuty := d, pausedSlots := pausedOf d }
    .next (s.setFld (rPwr (0x20 + part)) 4 0 d)
  else .next s

/-- `PAUSE_SLOT` (R448): two cycles before a paused slot the root raises cause 5, and lowers it 2,048 cycles later. No slot is paused
during a weight swap's hold. -/
def execPauseSlot (part slot : Nat) (s : State) : Res :=
  let q := s.part part
  let counted := if q.firstFrame then q.startAt.any (fun t => decide (q.frameStart = t + q.dmax)) else q.begun
  if q.loaded && counted && !q.held && q.pausedSlots.contains slot && decide (q.frameStart ≤ s.cyc + 2) &&
      decide ((s.cyc + 2 - q.frameStart) % frameLen = 2048 * slot) then
    .next (s.setPart part { q with items := q.items ++
      [{ core := s.rootOf q, cause := 5, up := s.cyc, down := some (s.cyc + 2048) }] })
  else .next s

end Sys2Proof.Machine
end

