-- ==== Sys2Proof/Machine/Net.lean ====
section
/-!
DEFINITION. The mesh and the straits (09_straits_and_stall_wave.md R262 to R288): the core cycle of the routers, scheduled lines and their
conflicts, the arbitration of links, strait checks, retries and spares, line checks, and the delivery of lines, remote flows and VC3 messages.
-/
namespace Sys2Proof.Machine

/-- An event of `NET_EVENT` at an edge (R288): `A` the edge. While the isle serves a partition, its record goes once in a beat for each kind
and edge; core (0, 0) of the isle keeps what has been recorded. -/
def State.edgeEvent (s : State) (isle edge bit cls : Nat) : State :=
  let s := s.orReg (rIsle isle 0x8B5) (2 ^ bit)
  let r : EvRec := { cls := cls, source := isle, bit := bit, reg := 0x8B5, isle := isle, a := edge }
  match s.logicalIsle isle with
  | some l => if (s.partOfIsle l).isSome then s.logOnce (mkCore l 0 0) (0x8C000 + 16 * bit + edge) r else s.log r
  | none => s.log r

/-! ## Links (R262, R265, R273) -/

/-- A link direction: the node it leaves and its direction; of a harbour the core its port leads to. -/
def linkKey (here : Nat) (h : Hop) : Nat := if isHarbour here then 2 ^ 24 + 4 * h.dest + h.dir else 4 * here + h.dir

/-- The router input by which a line arrives that went in a direction (R266 item 1): 1 north, 2 east, 3 south, 4 west. -/
def inputOf (dir : Nat) : Nat := (dir + 2) % 4 + 1

/-- Does a crossing between two isles pass unused ones (R271)? -/
def State.isExpress (s : State) (a b : CoreId) : Bool :=
  let x := s.physIsle (cIsle a)
  let y := s.physIsle (cIsle b)
  let d := (x - y) + (y - x)
  d != 1 && d != 10

/-- The key of a logical channel at its receiving isle. -/
def chKey (isle edge ch : Nat) : Nat := isle * 64 + edge * 16 + ch

/-- The strait channel of a crossing (R267 items 1 and 2, R271, R265 item 3). Express channels are kept apart from the edge's own, and what goes
out to a harbour from what comes in. -/
def State.channelOf (s : State) (here : Nat) (h : Hop) : Nat :=
  let ch (c : CoreId) : Nat := if h.dir % 2 = 1 then cRow c else cCol c
  if isHarbour h.dest then chKey (s.physIsle (cIsle here) + 512) h.dir (ch here)
  else
    let isle := s.physIsle (cIsle h.dest)
    chKey (if !isHarbour here && s.isExpress here h.dest then isle + 256 else isle) ((h.dir + 2) % 4) (ch h.dest)

/-- The latency of a link from router to router. -/
def hopCycles (h : Hop) : Nat := if h.strait then 20 else 2

/-- A flit launched into a strait channel. -/
def State.launch (s : State) (key line : Nat) (second : Bool) (at_ : Nat) : State :=
  let x := fget {} s.strait key
  { s with strait := fset {} s.strait key { x with buf := x.buf ++ [{ line := line, second := second, launch := at_ }] } }

/-- A line changed. -/
def State.updLine (s : State) (id : Nat) (f : NetLine → NetLine) : State :=
  { s with net := s.net.map (fun l => if l.id = id then f l else l) }

/-- A line without its remaining way. -/
def State.dropLine (s : State) (id : Nat) : State := { s with net := s.net.filter (fun l => l.id != id) }

/-- A line goes over its next link: its last flit leaves in this cycle, or in the next one where both are still to go (a scheduled line's). -/
def State.hop (s : State) (l : NetLine) (h : Hop) (cycle : Nat) : State :=
  let moved : NetLine := { l with
    here := h.dest, inp := inputOf h.dir, route := l.route.drop 1, at_ := s.cyc + hopCycles h, sch := l.sch + hopCycles h, half := false
    left := some (linkKey l.here h, cycle, l.inp), cross := if h.strait then some (s.channelOf l.here h) else none, late := false }
  let s := s.updLine l.id (fun _ => moved)
  if h.strait then
    let key := s.channelOf l.here h
    if l.vc = 0 then (s.launch key l.id false s.cyc).launch key l.id true (s.cyc + 1) else s.launch key l.id true s.cyc
  else s

/-! ## Scheduled lines (R266) -/

/-- Is a core's router in a score cycle in this core cycle? A frozen core's is in none. -/
def State.inScore (s : State) (node : Nat) : Bool := !isHarbour node && (s.core node).live

/-- Does a scheduled line leave its router in this cycle, and by which link? -/
def State.leaving (s : State) (l : NetLine) : Option Hop :=
  match l.route with
  | h :: _ =>
    if l.vc = 0 ∧ l.cross = none ∧ l.at_ ≤ s.cyc ∧ s.inScore l.here = true ∧ l.sch ≤ s.cycle l.here then some h else none
  | [] => none

/-- Scheduled flits dropped at a router (R266): counted and logged; in debug mode the partition halts. -/
def State.vc0Conflict (s : State) (c : CoreId) (flits : Nat) : State :=
  let s := s.satFld (s.sreg c 0x8B4) 23 16 flits
  let s := s.netEvent c 6 1
  let q := s.partAt c
  if q.debug && !q.openItem 7 then s.declare c 7 else s

/-- The scheduled lines that leave by one link in this cycle (R266): the first of the lowest input goes and the others are dropped. Where a line
of the cycle before has its second flit on the link, the lower input passes again, and the other line loses a flit. -/
def State.linkVc0 (s : State) (key : Nat) : State :=
  let here := s.net.filter (fun l => match s.leaving l with
    | some h => decide (linkKey l.here h = key)
    | none => false)
  match here with
  | [] => s
  | x :: xs =>
    let win := xs.foldl (fun (w : NetLine) l => if l.inp < w.inp then l else w) x
    let c := win.here
    let t := s.cycle c
    let s := (here.filter (fun l => l.id != win.id)).foldl (fun s l => (s.dropLine l.id).vc0Conflict c 2) s
    let before := s.net.find? (fun l => decide (l.vc = 0) && (match l.left with
      | some (k, u, _) => decide (k = key) && decide (u + 1 = t)
      | none => false))
    let go (s : State) : State := match win.route with
      | h :: _ => s.hop win h t
      | [] => s
    match before with
    | none => go s
    | some b =>
      if ((b.left.map (fun x => x.2.2)).getD 0) ≤ win.inp then (s.dropLine win.id).vc0Conflict c 1
      else go ((s.dropLine b.id).vc0Conflict c 1)

/-! ## VC2 and VC3 (R272, R273, R276) -/

/-- Is a physical isle's junction without VS, so that nothing passes it (R444, R445)? -/
def State.junctionOff (s : State) (isle : Nat) : Bool := s.pw.vsOff.contains isle

/-- Has a hop's link stopped with the junction of an isle at one of its ends, or of an unused one that it passes? -/
def State.linkOff (s : State) (here : Nat) (h : Hop) : Bool :=
  let isle (n : Nat) : List Nat := if isHarbour n then [] else [s.physIsle (cIsle n)]
  let ends := isle here ++ isle h.dest
  match ends with
  | [a, b] => ((List.range 80).filter (fun i =>
      decide (Nat.min a b ≤ i) && decide (i ≤ Nat.max a b) && (decide (a / 10 = b / 10) || decide (i % 10 = a % 10) || i == b))).any s.junctionOff
  | _ => ends.any s.junctionOff

/-- Does a line of VC2 or VC3 wait for a link in this cycle? A link of an isle without VS moves nothing. -/
def State.waitsFor (s : State) (l : NetLine) : Option Nat :=
  match l.route with
  | h :: _ => if 2 ≤ l.vc ∧ l.cross = none ∧ l.at_ ≤ s.cyc ∧ s.linkOff l.here h = false then some (linkKey l.here h) else none
  | [] => none

/-- Does a scheduled flit use a link in this cycle: one of a line that has left in this or in the last score cycle? -/
def State.vc0Uses (s : State) (node key : Nat) : Bool :=
  s.inScore node && s.net.any (fun l => decide (l.vc = 0) && (match l.left with
    | some (k, u, _) => decide (k = key) && (decide (u = s.cycle node) || decide (u + 1 = s.cycle node))
    | none => false))

/-- The VC3 line whose flit goes next (R273): one whose first flit has gone, then lane-sheet lines, then others, the longest waiting first. -/
def vc3Next (l : List NetLine) : Option NetLine :=
  let sheet (x : NetLine) : Bool := match x.msg with
    | .vc3 (.sheetLine _ _ _) => true
    | _ => false
  let v := l.filter (fun x => decide (x.vc = 3))
  (v.find? (·.half)).orElse (fun _ => (v.find? sheet).orElse (fun _ => v.head?))

/-- The flow a line of VC2 belongs to. -/
def NetMsg.flow : NetMsg → Nat
  | .request f => f
  | .flowLine f _ _ _ => f
  | _ => 0

/-- The VC2 line whose flit goes next (R273): one whose first flit has gone, then the flows in turn after the one served last. -/
def vc2Next (last : Nat) (l : List NetLine) : Option NetLine :=
  let v := l.filter (fun x => decide (x.vc = 2))
  let first (p : Nat → Bool) : Option NetLine :=
    ((v.map (fun x => x.msg.flow)).filter p).min?.bind (fun f => v.find? (fun x => decide (x.msg.flow = f)))
  (v.find? (·.half)).orElse (fun _ => (first (fun f => decide (last < f))).orElse (fun _ => first (fun _ => true)))

/-- One flit of a line goes: the first one, or the second and with it the line. -/
def State.flitGoes (s : State) (l : NetLine) : State :=
  match l.route with
  | [] => s
  | h :: _ =>
    if l.half then s.hop l h (s.cycle l.here)
    else
      let s := if h.strait then s.launch (s.channelOf l.here h) l.id false s.cyc else s
      s.updLine l.id (fun l => { l with half := true })

/-- A free cycle of a link direction (R273). While the router's core is in no score cycle the cycle belongs to no group. -/
def State.linkFree (s : State) (key : Nat) : State :=
  let w := s.net.filter (fun l => s.waitsFor l == some key)
  match w with
  | [] => s
  | x :: _ =>
    if s.vc0Uses x.here key then s
    else
      let st := fget {} s.links key
      let group := if s.inScore x.here then s.cycle x.here / 8 + 1 else 0
      let used := if group ≠ 0 ∧ st.group = group then st.used else 0
      let pick := if used < 2 then (vc3Next w).orElse (fun _ => vc2Next st.flow w) else (vc2Next st.flow w).orElse (fun _ => vc3Next w)
      match pick with
      | none => s
      | some l =>
        let st : LinkSt := { group := group, used := used + (if l.vc = 3 then 1 else 0), flow := if l.vc = 2 then l.msg.flow else st.flow }
        { s with links := fset {} s.links key st }.flitGoes l

/-! ## Straits (R268, R269) -/

/-- Cycles from launch to delivery of a flit that has failed `n` checks: one retry within the slot, 10 cycles for each further attempt, 16 more for a
switch to a spare after every fourth failure (R268 to R270). -/
def straitDelay (n : Nat) : Nat :=
  if n ≤ 1 then 20 else if n < 4 then 10 + 10 * n else 26 + 10 * n + (n - 4) / 4 * 16

/-- The cycle after launch in which the next check of a flit takes place. -/
def straitCheckAt (n : Nat) : Nat := if n = 0 then 9 else straitDelay n - 1

/-- Has a flit passed its last check and come to the end of its crossing? -/
def StraitFlit.arrives (f : StraitFlit) (now : Nat) : Bool := !f.nak && decide (f.launch + straitDelay f.total ≤ now)

/-- The flits that arrive from the straits in this cycle: a line whose last flit is there is at the receiving router, and a strait-retry item
declared for it completes (R269 item 1). -/
def State.straitArrivals (s : State) : State :=
  let clear (x : StraitCh) : StraitCh := if x.failed then x else { x with buf := x.buf.filter (fun f => !f.arrives s.cyc) }
  let chs : FMap StraitCh := (s.strait.map (fun p => (p.1, clear p.2))).filter (fun p => p.2 != ({} : StraitCh))
  let s := { s with strait := chs }
  let there (l : NetLine) : Bool := match l.cross with
    | some key => !(fget ({} : StraitCh) chs key).buf.any (fun f => decide (f.line = l.id))
    | none => false
  (s.net.filter there).foldl (fun s l =>
    let s := s.updLine l.id (fun l => { l with cross := none, late := false, at_ := s.cyc })
    if l.late then s.complete l.here 3 else s) s

/-! ## A core cycle of the network -/

/-- The VC0 skid buffers (R285): lines that are at a router before they leave or are delivered; the most flits in one buffer of a site. -/
def State.skidMarks (s : State) : State :=
  let held (l : NetLine) : Bool := decide (l.vc = 0) && decide (l.inp ≠ 0) && l.cross.isNone && decide (l.at_ ≤ s.cyc)
  (s.net.filter held).foldl (fun s l =>
    let n := ((s.net.filter (fun x => held x && decide (x.here = l.here) && decide (x.inp = l.inp))).map
      (fun x => if x.at_ = s.cyc then 1 else 2)).sum
    let r := s.sreg l.here 0x8B4
    s.setFld r 28 24 (Nat.min 24 (Nat.max (s.fld r 28 24) n))) s

/-- THE NETWORK IN A CORE CYCLE: scheduled flits leave their routers, then VC2 and VC3 in the cycles left free. -/
def State.meshCycle (s : State) : State :=
  if s.net = [] then s
  else
    let s := ((s.net.filterMap (fun l => (s.leaving l).map (linkKey l.here))).eraseDups).foldl State.linkVc0 s
    let s := ((s.net.filterMap s.waitsFor).eraseDups).foldl State.linkFree s
    s.skidMarks

/-! ## Line checks (R264) -/

/-- What a router makes of an arriving line's bytes (R264). -/
def routed (err : BitVec 544) (data : Bytes) : Bytes :=
  match decodeErr err with
  | .bad => onesLine
  | _ => if residue err = 0 then data else xorLine data (residue err)

/-- The counters and events of an arriving line's check (R264). -/
def State.lineChecked (s : State) (c : CoreId) (err : BitVec 544) : State :=
  match decodeErr err with
  | .clean => s
  | .bad => (s.satFld (s.sreg c 0x8B4) 15 8 1).netEvent c 5 1
  | _ => s.satFld (s.sreg c 0x8B4) 7 0 1

/-- A message whose 64 data bytes have been changed on their way. -/
def NetMsg.mapData (f : Bytes → Bytes) : NetMsg → NetMsg
  | .vc0 l => .vc0 { l with data := f l.data }
  | .flowLine id k data p => .flowLine id k (f data) p
  | .vc3 (.sheetLine c lane data) => .vc3 (.sheetLine c lane (f data))
  | .vc3 (.laneState p c lane word) => .vc3 (.laneState p c lane (f word))
  | m => m

/-- Is a line at the end of its way? -/
def NetLine.there (l : NetLine) (now : Nat) : Bool := l.route.isEmpty && l.cross.isNone && decide (l.at_ ≤ now)

/-- A line of the network by its number. -/
def State.lineOf (s : State) (id : Nat) : Option NetLine := s.net.find? (fun l => decide (l.id = id))

/-- `LINK_LINE_ARRIVAL` (R264): the receiving router checks a line's codeword before the line is written; `err` is its error pattern. At a
harbour, which has no `NET_LINK`, nothing is counted. -/
def execLinkLineArrival (id : Nat) (err : BitVec 544) (s : State) : Res :=
  match s.lineOf id with
  | none => .next s
  | some l =>
    if l.there s.cyc = false then .next s
    else
      let s := s.updLine id (fun l => { l with msg := l.msg.mapData (routed err) })
      .next (if isHarbour l.here then s else s.lineChecked l.here err)

/-! ## Checks, retries and spares of the straits (R267 to R271) -/

/-- The register `NET_STRAIT` of an edge. -/
def rStrait (isle edge : Nat) : Nat := rIsle isle (0x8B0 + edge)

/-- The physical isle that a channel's number names: express channels and channels to a harbour have numbers of their own. -/
def chIsle (isle : Nat) : Nat := isle % 256

/-- The spare channel that a logical channel moves to is kept at both ends of its edge (R270). -/
def State.moveChannel (s : State) (isle edge ch spare : Nat) : State :=
  (s.edgeEnds isle edge).foldl (fun s e =>
    { s.setFld (rStrait e.1 e.2) 25 24 (2 - spare) with chMap := fset 0 s.chMap (chKey e.1 e.2 ch) spare }) s

/-- A channel must be retired after a flit's fourth failure on it (R270): it moves to a free spare of the edge, or it fails. The repair log gets a
record of either (log entry 25). -/
def State.spareChannel (s : State) (isle edge ch : Nat) (x : StraitCh) : State :=
  let at_ := chIsle isle
  let left := s.fld (rStrait at_ edge) 25 24
  let key := chKey isle edge ch
  let s := s.repLog { kind := 5, cause := 1, isle := at_, site := 255, element := edge * 16 + ch }
  if left = 0 then
    let s := { s with strait := fset {} s.strait key { x with failed := true } }
    let s := (s.edgeEnds at_ edge).foldl (fun s e => s.setFld (rStrait e.1 e.2) 26 26 1) s
    (s.edgeEvent at_ edge 2 1).failEdge at_ edge
  else
    let s := { s with strait := fset {} s.strait key x }
    let s := s.moveChannel at_ edge ch (3 - left)
    let s := s.edgeEvent at_ edge 1 3
    if left = 1 then s.edgeEvent at_ edge 3 2 else s

/-- The flit at a place of a channel's replay buffer changed. -/
def StraitCh.setFlit (x : StraitCh) (k : Nat) (f : StraitFlit) : StraitCh := { x with buf := x.buf.set k f }

/-- `STRAIT_CRC_CHECK` (R268): the receiving port of an isle's edge checks the flit at its place of the channel's replay buffer, in the cycle in
which its check is due. `err` gives the bits of the 304-bit flit and, above them, of its CRC in which the flit received differs from the flit
sent. -/
def execStraitCrcCheck (isle edge : Nat) (flit : FlitAt) (err : BitVec 336) (s : State) : Res :=
  let key := chKey isle edge flit.ch
  let x := fget {} s.strait key
  let diff := crc32 (err.toNat % 2 ^ 304) 304 0 ^^^ (err.toNat / 2 ^ 304)
  match x.buf[flit.place]? with
  | none => .next s
  | some f =>
    if 4 ≤ edge ∨ 12 ≤ flit.ch ∨ x.failed = true ∨ f.nak = true ∨ s.cyc ≠ f.launch + straitCheckAt f.total ∨ diff = 0 then .next s
    else .next { s with strait := fset {} s.strait key (x.setFlit flit.place { f with fails := f.fails + 1, total := f.total + 1, nak := true }) }

/-- `STRAIT_NAK` (R268 to R270): the NAK of a flit reaches its sender, which replays it: the first retry falls within the slot, further ones do not;
after the fourth failure on one channel the flit moves to a spare. The receiving isle counts. -/
def execStraitNak (isle edge : Nat) (flit : FlitAt) (s : State) : Res :=
  let key := chKey isle edge flit.ch
  let x := fget {} s.strait key
  match x.buf[flit.place]? with
  | none => .next s
  | some f =>
    if f.nak = false ∨ x.failed = true then .next s
    else
      let at_ := chIsle isle
      let lost := decide (4 ≤ f.fails) && decide (s.fld (rStrait at_ edge) 25 24 = 0)
      let s := if lost then s
               else if f.total = 1 then s.satFld (rStrait at_ edge) 15 0 1
               else (s.satFld (rStrait at_ edge) 23 16 1).edgeEvent at_ edge 0 2
      if 4 ≤ f.fails then .next (s.spareChannel isle edge flit.ch (if lost then x else x.setFlit flit.place { f with fails := 0, nak := false }))
      else .next { s with strait := fset {} s.strait key (x.setFlit flit.place { f with nak := false }) }

/-- Is a scheduled line late at the end of a strait: has a flit of it not been delivered by its cycle in the receiving core's score time, of which
the cycle that begins now is `now` (R269 item 1)? -/
def State.lateLine (s : State) (l : NetLine) (now : Nat) : Bool :=
  decide (l.vc = 0) && !l.late && !isHarbour l.here && (match l.cross with
    | some key => (fget {} s.strait key).buf.any (fun f =>
        decide (f.line = l.id) && decide (l.sch + b2n f.second ≤ now) && !f.arrives s.cyc)
    | none => false)

/-- Does a line cross an edge of an isle? -/
def NetLine.crosses (l : NetLine) (isle edge : Nat) : Bool :=
  match l.cross with
  | some key => decide (key / 64 = isle) && decide (key / 16 % 4 = edge)
  | none => false

/-- `STRAIT_RETRY_LATE` (R269 item 1): a VC0 flit that crosses an isle's edge has not been delivered by its scheduled cycle; the receiving
port declares an item of cause 3. -/
def execStraitRetryLate (isle edge id : Nat) (s : State) : Res :=
  match s.lineOf id with
  | none => .next s
  | some l =>
    if l.crosses isle edge && s.lateLine l (s.core l.here).clk then .next ((s.updLine id (fun l => { l with late := true })).declare l.here 3) else .next s

/-! ## Deliveries -/

/-- `VC0_FLIT_DELIVERY` (R184, R266, R285): a scheduled line leaves the network in its delivery cycle of the receiver's score time, or at once where it
comes later; at a frozen core it waits in the skid buffer. It is written through port 6, with the sender's tag action. -/
def execVc0FlitDelivery (core : CoreId) (line id : Nat) (s : State) : Res :=
  match s.lineOf id with
  | none => .next s
  | some l =>
    match l.msg with
    | .vc0 m =>
      let k := s.core m.core
      if m.core ≠ core ∨ m.line ≠ line ∨ l.there s.cyc = false ∨ k.frozen = true ∨ k.clk < l.sch then .next s
      else
        let s := (s.dropLine id).addOps m.core [writeOp 6 (Nat.max l.sch (s.cycle m.core)) m.space (64 * m.line) m.data m.fill]
        .next (if m.poison then s.passPoison m.core m.lane else s)
    | _ => .next s

/-- A flow with a line more delivered. -/
def State.flowDone (s : State) (id : Nat) (held : List (Nat × Bytes)) : State :=
  let more (f : Flow) : Flow := if f.id = id then { f with done := f.done + 1, held := f.held ++ held } else f
  { s with flows := (s.flows.map more).filter (fun f => f.pull || decide (f.done < f.lines.length)) }

/-- A line of a flow arrives at its destination (R275): into the U port's queue of a shelf, as a background write of a cabinet slice; the
lane's poison flag goes with it (R86). -/
def State.flowLand (s : State) (c : CoreId) (f : Flow) (k : Nat) (data : Bytes) (poison : Bool) : State :=
  match f.lines[k]? with
  | none => s
  | some l =>
    let s := if poison then s.passPoison c f.lane else s
    if f.pull then s.flowDone f.id [(l.src, data)]
    else
      let s := s.flowDone f.id []
      let off := waOff l.dst
      if waSpace l.dst = spCabinet then
        (match s.cabReach c off false with
         | some o => if s.cabWritable c off false then s.claim c { prio := 2, off := o, kind := .flowWrite data } else s
         | none => s)
      else s.updCore c (fun x => { x with uq := x.uq ++ [{ src := .vc2, space := spShelf, off := off, act := .write data, at_ := s.cyc }] })

/-- `VC2_LINE_DELIVERY` (R275): a line of VC2 arrives: a read request at the core that answers it, or a line of a flow. At retention it waits
(R179). -/
def execVc2LineDelivery (core : CoreId) (id : Nat) (s : State) : Res :=
  match s.lineOf id with
  | none => .next s
  | some l =>
    if l.here ≠ core ∨ l.there s.cyc = false ∨ l.vc ≠ 2 ∨ s.retained l.here = true then .next s
    else
      let t := s.dropLine id
      match s.flows.find? (fun f => decide (f.id = l.msg.flow)) with
      | none => .next t
      | some f =>
        match l.msg with
        | .request _ => .next (t.flowAsk l.here f 0 s.cyc)
        | .flowLine _ k data poison => .next (t.flowLand l.here f k data poison)
        | _ => .next t

/-- An addition to a sync counter (R366), modulo 2^32. -/
def State.syncAdd (s : State) (ctr add : Nat) : State :=
  let n := ctr % 65536
  { s with sync := fset 0 s.sync n ((fget 0 s.sync n + add) % 2 ^ 32) }

/-- A void message reaches a core (R359 item 3): a U write of `VOID` in the state word of every lane whose current view names the entry; where
the next view names it, the lane's next beat begins with it. -/
def State.voidAt (s : State) (c : CoreId) (entry : Nat) : State :=
  (List.range 32).foldl (fun s lane =>
    let s := if names (s.sheetEnt c lane) entry then
        s.updCore c (fun k => { k with uq := k.uq ++ [{ src := .vc3, space := spShelf, off := wordOff lane, act := .void entry, at_ := s.cyc }] })
      else s
    if names (s.rdLine c spShelf (nextSheetOff lane)) entry then
      s.updCore c (fun k => { k with voidNext := if k.voidNext.contains lane then k.voidNext else lane :: k.voidNext })
    else s) s

/-- What a VC3 message does where it arrives (R272): a counter addition and a lane state word at the South harbour, a void message at a core, a
lane-sheet line in a core's U port. -/
def State.vc3Land (s : State) : Vc3Msg → State
  | .sync ctr add => s.syncAdd ctr add
  | .laneState p _ lane word =>
    let v := s.reg64 (rCwy (0x40 + 2 * p))
    if v / 2 ^ 15 % 2 = 1 then s.fabSend (devAddr (v % 4096)) 1 0x09 0 (natLe 1 (v / 2 ^ 12 % 8) ++ natLe 1 lane) [word]
    else s.updPart p (fun q => { q with words := q.words ++ [(lane, word)] })
  | .void core entry => s.voidAt core entry
  | .sheetLine core lane data =>
    s.updCore core (fun k => { k with uq := k.uq ++ [{ src := .sheet, space := spShelf, off := nextSheetOff lane, act := .write data, at_ := s.cyc }] })

/-- Does a VC3 message wait where it is: a counter addition while the serving scheduler is down (R368), a delivery to a core at retention (R179)? -/
def State.vc3Waits (s : State) : Vc3Msg → Bool
  | .sync _ _ => !s.schUp
  | .laneState _ _ _ _ => false
  | .void core _ => s.retained core
  | .sheetLine core _ _ => s.retained core

/-- A message of VC3 that has arrived, chosen by what it is, leaves the network and has its effect. -/
def State.vc3Arrives (s : State) (p : NetLine → Vc3Msg → Bool) : State :=
  let hit (l : NetLine) : Option Vc3Msg := match l.msg with
    | .vc3 m => if l.there s.cyc && p l m && !s.vc3Waits m then some m else none
    | _ => none
  match s.net.find? (fun l => (hit l).isSome) with
  | none => s
  | some l =>
    match hit l with
    | some m => (s.dropLine l.id).vc3Land m
    | none => s

/-- Void messages for a request leave SCH for cores (R359 item 3). -/
def State.sendVoids (s : State) (cores : List CoreId) (entry : Nat) : State :=
  cores.foldl (fun s c => s.sendVc3 southHarbour c (.void c entry)) s

/-- `VC3_MESSAGE_DELIVERY` (R272): a message in flight arrives. -/
def execVc3MessageDelivery (id : Nat) (s : State) : Res := .next (s.vc3Arrives (fun l _ => decide (l.id = id)))

/-- `LANE_SHEET_DELIVERY` (R203, R339): the line of a lane of the core's view arrives for its next-sheet area. -/
def execLaneSheetDelivery (core : CoreId) (lane : Nat) (data : Bytes) (s : State) : Res :=
  .next (s.vc3Arrives (fun _ m => match m with
    | .sheetLine c l d => decide (c = core) && decide (l = lane) && decide (d = data)
    | _ => false))

end Sys2Proof.Machine
end

