-- ==== Sys2Proof/Machine/Reqs.lean ====
section
/-!
DEFINITION. Requests: completion records and rings (13_host_attachment.md R380 to R385), state changes and their trace points
(12_serving_engine.md R342; 21_telemetry_logs_digests.md R547), endings (R356 to R361), measures (R351, R538), lane state words (R347
step 1), speculative pairs (R357, R358).
-/
namespace Sys2Proof.Machine

/-! ## Rings (R380 to R385) -/

/-- Where a ring's state lies: kind 0 submission, 1 completion, 2 event ring. -/
def ringKey (fn kind q : Nat) : Nat := fn * 64 + kind * 16 + q

def State.ring (s : State) (fn kind q : Nat) : Ring := fget {} s.rings (ringKey fn kind q)
def State.setRing (s : State) (fn kind q : Nat) (r : Ring) : State := { s with rings := fset {} s.rings (ringKey fn kind q) r }

/-- Rings of each kind that a function has (R381). -/
def ringsOf (fn : Nat) : Nat := if fn = 0 then 16 else 2

/-- Registers of a completion ring (Tables 13-14 to 13-20). -/
def cqReg (fn q w : Nat) : Nat := rHost fn (0x200 + 8 * (q % 16) + w)

/-- Registers of a submission ring. -/
def sqReg (fn q w : Nat) : Nat := rHost fn (0x100 + 8 * (q % 16) + w)

/-- Is a function in D3hot (R390)? -/
def State.inD3 (s : State) (fn : Nat) : Bool := s.d3.contains fn

/-- Has a completion ring room for a record (R384)? -/
def State.cqSpace (s : State) (fn q : Nat) : Bool :=
  let r := s.ring fn 1 q
  s.fld (cqReg fn q 4) 16 16 == 1 && !s.inD3 fn && s.fld (cqReg fn q 6) 17 17 == 0 && r.ready &&
    (s.fld (cqReg fn q 6) 15 0 + 1) % s.fld (cqReg fn q 4) 15 0 != r.host

/-- A function's MSI-X vector is sent; a masked vector sets its pending bit (R385). The vector table's words lie at page byte 0x8000, the
pending bits at byte 0x7000 (R392); word 3, bit 0 of an entry is its mask. -/
def State.msix (s : State) (fn vec : Nat) : State :=
  if s.fld (rHost fn (0x2000 + 4 * vec + 3)) 0 0 = 1 then s.orReg (rHost fn (0x1C00 + vec / 32)) (2 ^ (vec % 32))
  else s.send (.msix fn vec)

/-- The moderation of a completion ring after a record (R385). -/
def State.moderate (s : State) (fn q : Nat) : State :=
  let r := s.ring fn 1 q
  if Nat.max 1 (s.fld (cqReg fn q 5) 7 0) ≤ r.unsig then
    (s.setRing fn 1 q { r with unsig := 0 }).msix fn (s.fld (cqReg fn q 4) 27 17)
  else s

/-- An entry's state changes; with the `REQ` trace point on, a trace record (R547): `A` the entry, `B` the old state and, above it, the new
one, `C` the low half of `USER`. -/
def State.reqState (s : State) (e st : Nat) : State :=
  let r := s.req e
  let s' := s.setReq e { r with state := st }
  if r.state ≠ st ∧ s.fld (rTel (0x28 + r.part)) 1 1 = 1 then
    s'.log { cls := 4, source := 82, part := r.part, reg := 0x160 + 2 * r.part, a := e, b := r.state + 256 * st, c := r.user % 2 ^ 32 }
  else s'

/-- A record goes into the next slot of a completion ring, then the producer index (R384, R386 item 1); the entry it ends becomes Free. -/
def State.cqWrite (s : State) (fn q : Nat) (x : Option Nat × Bool × Bytes) : State :=
  let pidx := s.fld (cqReg fn q 6) 15 0
  let next := (pidx + 1) % s.fld (cqReg fn q 4) 15 0
  let s := s.send (.hostWrite fn (s.reg64 (cqReg fn q 0) / 4096 * 4096 + 64 * pidx) x.2.2)
  let s := s.setFld (cqReg fn q 6) 15 0 next
  let s := s.send (.hostWrite fn (s.reg64 (cqReg fn q 2) / 8 * 8 + 4) (natLe 4 next))
  let r := s.ring fn 1 q
  let s := s.setRing fn 1 q { r with unsig := r.unsig + 1, oldest := if r.unsig = 0 then s.now else r.oldest }
  let s := s.moderate fn q
  match x.1, x.2.1 with
  | some e, true => s.reqState e 0
  | _, _ => s

/-- A completion record for a ring (R384): written where there is room and nothing waits before it, else held. -/
def State.cqPost (s : State) (fn q : Nat) (e : Option Nat) (frees : Bool) (bs : Bytes) : State :=
  let r := s.ring fn 1 q
  if r.held = [] ∧ s.cqSpace fn q then s.cqWrite fn q (e, frees, bs)
  else
    let s := s.setRing fn 1 q { r with held := r.held ++ [(e, frees, bs)] }
    (s.setFld (cqReg fn q 6) 16 16 1).satFld (rHost fn 5) 15 0 1

/-- Held records of a ring are written in order while there is room (R384 item 3). -/
def State.cqFlush (s : State) (fn q : Nat) : Nat → State
  | 0 => s
  | k + 1 =>
    let r := s.ring fn 1 q
    match r.held with
    | [] => s.setFld (cqReg fn q 6) 16 16 0
    | x :: xs => if s.cqSpace fn q then ((s.setRing fn 1 q { r with held := xs }).cqWrite fn q x).cqFlush fn q k else s

/-- Has a request a held record (R384 item 2)? -/
def State.hasHeld (s : State) (e : Nat) : Bool :=
  let r := s.req e
  (s.ring r.func 1 r.cring).held.any (fun x => x.1 == some e)

/-! ## Completion records (Table 12-7) -/

/-- The 64 bytes of a completion record; `flags` is byte 5. -/
def State.complBytes (s : State) (kind ntok entry status flags user pos : Nat) (toks : List Nat) : Bytes :=
  natLe 1 kind ++ natLe 1 (ntok % 16) ++ natLe 2 entry ++ natLe 1 status ++ natLe 1 flags ++ natLe 2 0 ++ natLe 8 user ++
    natLe 4 (pos % 2 ^ 20) ++ natLe 4 (s.now / 1000 % 2 ^ 32) ++
    ((List.range 9).map (fun i => natLe 4 (toks.getD i 0))).flatten ++ natLe 4 0

/-- A record of a request into its ring (R346). -/
def State.compl (s : State) (e kind status pos : Nat) (last frees : Bool) (toks : List Nat) : State :=
  let r := s.req e
  if r.silent then (if frees then s.reqState e 0 else s)
  else
    s.cqPost r.func r.cring (some e) frees
      (s.complBytes kind toks.length e status (b2n r.late + 2 * b2n last) r.user pos toks)

/-- The `END` of a request, with its status (Table 12-4): the entry becomes Free as it is written. -/
def State.endRec (s : State) (e : Nat) : State :=
  let s := s.updReq e (fun r => { r with placed := false })
  s.compl e 3 (s.req e).status 0 true true []

/-- A `MISS` (R342, R345, R346): to completion ring 0 of the function whose ring held the record, with the `LATE` flag of the entry it names. -/
def State.miss (s : State) (fn : Nat) (record : Bytes) : State :=
  let e := leNat ((record.drop 4).take 2)
  let late := decide (e < 8192) && decide ((s.req e).state ≠ 0) && (s.req e).late
  s.cqPost fn 0 none false (s.complBytes 6 0 e 0x0E (b2n late) (leNat ((record.drop 16).take 8)) 0 [])

/-! ## Endings (R356, R359, R360) -/

/-- Devices and partitions that follow a leader partition (Table 14-13). -/
def State.followers (s : State) (p : Nat) : List (Nat × Nat) :=
  let v := s.reg64 (rCwy (0x50 + 2 * p))
  (List.range 4).filterMap (fun i =>
    let x := v / 2 ^ (16 * i) % 65536
    if x / 32768 = 1 then some (x % 4096, x / 4096 % 8) else none)

/-- An entry's view entries blanked (R359 item 2); a release they carry stays. -/
def blankEnt (e : Nat) (x : Bytes) : Bytes :=
  if entOcc x ∧ entMap x = e then
    x.take 1 ++ natLe 1 (8 * b2n (entRelv x)) ++ List.replicate 4 0 ++ (x.drop 6).take 2 ++ List.replicate 56 0
  else x

/-- The sheet engine blanks an entry in its history, and void messages leave for every core of the partition and for its followers (R359
items 2 and 3, R408 item 1). -/
def State.voidReq (s : State) (e : Nat) : State :=
  let p := (s.req e).part
  let q := s.part p
  let s := s.setPart p { q with history := q.history.map (fun l => l.map (blankEnt e)), groups := q.groups.filter (fun g => g.entry != e) }
  let s := s.sendVoids (s.partCores q) e
  (s.followers p).foldl (fun (s : State) f => s.fabSend (devAddr f.1) 1 0x0A 0 (natLe 1 f.2 ++ natLe 2 e) []) s

/-- Does a claim copy the park area of an entry? -/
def ClaimKind.copies (e : Nat) : ClaimKind → Bool
  | .park x => x == e
  | .restore x _ => x == e
  | _ => false

/-- Do copies of an entry's park area wait in a cabinet? -/
def State.copyWaits (s : State) (e : Nat) : Bool := s.cores.any (fun c => c.2.claims.any (fun k => k.kind.copies e))

/-- A copy of an entry's park area stops (Table 12-9). -/
def State.stopCopy (s : State) (e : Nat) : State :=
  if (s.req e).copying then
    (s.updReq e (fun r => { r with copying := false })).dropClaims (ClaimKind.copies e)
  else s

/-- A request in Prefill or Decode ends (Table 12-4): Cancelling 5, Done 6 or Faulted 7, with its status; its slots are free, its release
is due. -/
def State.endActive (s : State) (e st status : Nat) : State :=
  let s := (s.stopCopy e).updReq e (fun r => { r with status := status, held := [], parking := false, resuming := false })
  let s := s.reqState e st
  let s := if st = 5 then s.voidReq e else s
  s.updPart (s.req e).part (fun q => { q with relQ := q.relQ ++ [e], groups := q.groups.filter (fun g => g.entry != e) })

/-- A park area is marked (R363): 2 invalid, 3 consumed. -/
def State.markArea (s : State) (e v : Nat) : State :=
  let r := s.req e
  s.send (.hostWrite r.func r.parkAddr (natLe 4 v))

/-- A Queued or Parked request ends at once (Table 12-4); in Cancelling while its `END` is held (R342). -/
def State.endIdle (s : State) (e status : Nat) : State :=
  let s := (s.stopCopy e).updReq e (fun r => { r with status := status, held := [], resuming := false })
  let r := s.ring (s.req e).func 1 (s.req e).cring
  if (r.held = [] ∧ s.cqSpace (s.req e).func (s.req e).cring) ∨ (s.req e).silent then s.endRec e else (s.reqState e 5).endRec e

/-- One entry ends as by a `CANCEL` with a status (R359). -/
def State.cancelOne (s : State) (e status : Nat) (invalidate : Bool) : State :=
  let st := (s.req e).state
  if st = 1 then s.endIdle e status
  else if st = 4 then (if invalidate then s.markArea e 2 else s).endIdle e status
  else if st = 2 ∨ st = 3 then s.endActive e 5 status
  else s

/-- A proxy message as bytes: kind 0 create, 1 draft token, 2 round result. -/
def proxyBytes : ProxyMsg → Bytes
  | .create p prompt sampling submit =>
    natLe 1 0 ++ natLe 1 p ++ natLe 4 prompt.length ++ (prompt.map (natLe 4)).flatten ++ sampling.flatten ++ submit
  | .draftToken e t => natLe 1 1 ++ natLe 2 e ++ natLe 4 t
  | .roundResult e a t => natLe 1 2 ++ natLe 2 e ++ natLe 1 a ++ natLe 4 t

/-- A proxy message leaves on FV1 (R410). -/
def State.sendProxy (s : State) (dev : Nat) (m : ProxyMsg) : State := s.fabMessage (devAddr dev) 1 0x0C 0 [] (linesOf (proxyBytes m))

/-- The end of a target ends its draft (R358, R410), whatever ended the target; a remote draft is told by a round result that accepts
nothing. -/
def State.endDraft (s : State) (e status : Nat) : State :=
  let r := s.req e
  if r.spec then
    match r.proxy with
    | some d => s.sendProxy d (.roundResult e 0 0)
    | none => if (s.req r.link).draft ∧ (s.req r.link).link = e then s.cancelOne r.link status false else s
  else s

/-- A request ends as by a `CANCEL` with a status. -/
def State.cancelReq (s : State) (e status : Nat) (invalidate : Bool) : State := (s.cancelOne e status invalidate).endDraft e status

/-- A request in Prefill or Decode ends Done or Faulted, its draft with it. -/
def State.endReq (s : State) (e st status : Nat) : State := (s.endActive e st status).endDraft e status

/-! ## Lane state words (R347 step 1, R351, R356 to R358) -/

/-- A measure counted in its histogram (R538): `k` 0 first token, 1 between tokens. -/
def State.hist (s : State) (p k m : Nat) : State := s.sat32 (rTel (0x500 + 64 * p + 32 * k + Nat.log2 (Nat.max m 1))) 1

/-- The measures of one `TOKENS` record (R351). -/
def State.measure (s : State) (e : Nat) : State :=
  let r := s.req e
  let p := r.part
  if r.ttft = 0xFFFFFFFF then
    let m := Nat.min ((s.now - r.tArrive) / 1000) 0xFFFFFFFE
    let s := (s.setReq e { r with ttft := m, tLast := s.now }).hist p 0 m
    if r.ttftGoal < m then s.satFld (rSch (0x170 + p)) 15 0 1 else s
  else
    let m := Nat.min ((s.now - r.tLast) / 1000) 0xFFFFFFFF
    let s := (s.setReq e { r with tbtLast := m, tbtMax := Nat.max r.tbtMax m, tLast := s.now }).hist p 1 m
    if r.tbtGoal < m then s.satFld (rSch (0x170 + p)) 31 16 1 else s

/-- The tokens a group delivers (R356): in order up to a stop token, which is delivered, or the token that reaches `MAX_NEW`; with the
status that ends the request, 0 for none. -/
def deliver (stops : List Nat) : Nat → List Nat → List Nat × Nat
  | 0, _ => ([], 2)
  | _, [] => ([], 0)
  | 1, t :: _ => ([t], if stops.contains t then 1 else 2)
  | left + 1, t :: ts =>
    if stops.contains t then ([t], 1)
    else
      let (d, st) := deliver stops left ts
      (t :: d, st)

/-- Has a request a group in a stage's view of the current beat, or one whose word is awaited? -/
def Part.running (q : Part) (e : Nat) : Bool :=
  q.groups.any (fun g => g.entry == e && (decide (q.beat < g.beat + Nat.max q.stages 1) || g.kind != 1 || g.lastp))

/-- A field of a lane state word (Table 12-2). -/
def wordByte (w : Bytes) (i : Nat) : Nat := leNat ((w.drop i).take 1)
def wordTok (w : Bytes) (i : Nat) : Nat := leNat ((w.drop (16 + 4 * i)).take 4) % 2 ^ 24

/-- An addition to a counter of another device (R405): kind data partition, counter, addend. -/
def State.sendCount (s : State) (dev part ctr add : Nat) : State :=
  s.fabSend (devAddr dev) 1 0x06 0 (natLe 1 part ++ natLe 2 ctr ++ natLe 4 add) []

/-- A draft's token becomes a draft of its target (R358 item 1). -/
def State.addDraft (s : State) (target tok : Nat) : State :=
  let s := s.updReq target (fun r => { r with drafts := r.drafts ++ [tok] })
  s.syncAdd (s.req target).dctr 1

/-- A round of a pair ends (R358 item 4): the round counter rises, the draft restarts behind the accepted positions with the last token. -/
def State.endRound' (s : State) (e pos0 c tok : Nat) : State :=
  let r := s.req e
  let s := s.setReq e { r with drafts := [], rounds := r.rounds + 1 }
  let s := s.syncAdd (r.dctr + 1) 1
  match r.proxy with
  | some d => s.sendProxy d (.roundResult e c tok)
  | none => s.updReq r.link (fun x => if x.draft then { x with pos := pos0 + c, lastTok := tok } else x)

/-- The word of a sampled group taken in: position, token, delivery, ending (R347, R351, R356 to R358, R360 item 3). -/
def State.sampled (s : State) (e : Nat) (g : Group) (w : Bytes) : State :=
  let r := s.req e
  let c := wordByte w 4 % 16
  let toks := (List.range (Nat.min c 9)).map (wordTok w)
  let tok := toks.getLastD r.lastTok
  let s := s.setReq e { r with pos := if g.kind = 1 then r.pos else g.pos0 + c, lastTok := tok }
  let s := if r.state = 2 then s.reqState e 3 else s
  if r.draft then
    if g.kind = 1 then s
    else
      let s := s.updReq e (fun r => { r with produced := r.produced + toks.length })
      match r.proxy with
      | some d => toks.foldl (fun s t => (s.sendProxy d (.draftToken r.link t)).sendCount d r.rpart r.dctr 1) s
      | none => toks.foldl (fun s t => s.addDraft r.link t) s
  else
    let s := if g.kind = 3 then s.endRound' e g.pos0 c tok else s
    let (out, st) := deliver r.stops (r.maxNew - r.generated) toks
    let s := s.updReq e (fun r => { r with generated := r.generated + out.length })
    let st := if st = 0 ∧ r.late ∧ !(s.part r.part).running e then 5 else st
    let pos := if g.kind = 1 then g.pos0 + g.n else g.pos0 + 1
    let s := if out = [] ∧ (st = 0 ∨ st = 5) then s else (s.measure e).compl e 2 st pos (st != 0) false out
    if st = 0 then s else s.endReq e 6 st

/-- A lane state word handled (R347 step 1): voided lanes and requests that are not running are discarded; `KVX` faults the request at
once; poison or an empty candidate list fault it; else the oldest group of the lane that has reached the last stage is taken. -/
def State.wordIn (s : State) (p lane : Nat) (w : Bytes) : State :=
  let e := leNat ((w.drop 8).take 2) % 8192
  let f := wordByte w 5
  let r := s.req e
  let q := s.part p
  if r.part ≠ p ∨ (r.state ≠ 2 ∧ r.state ≠ 3) ∨ f / 2 % 2 = 1 then s
  else
    match q.groups.find? (fun g => g.entry == e && g.lane == lane && decide (g.beat + Nat.max q.stages 1 ≤ q.beat + 1)) with
    | none => if f / 16 % 2 = 1 then s.endReq e 7 7 else s
    | some g =>
      let s := s.setPart p { q with groups := q.groups.erase g }
      if f % 2 = 1 then s.endReq e 7 6
      else if f / 8 % 2 = 1 then s.endReq e 7 8
      else if f / 16 % 2 = 1 then s.endReq e 7 7
      else if g.kind = 1 ∧ !g.lastp then
        (if r.late ∧ !(s.part p).running e then s.endReq e 6 5 else s)
      else s.sampled e g w

end Sys2Proof.Machine
end

