-- ==== Sys2Proof/Machine/Sheet.lean ====
section
/-!
DEFINITION. Beat assembly (12_serving_engine.md R337 to R340, R347 to R350, R358, R367, R368; 17_thermal.md R474; 14_causeway_fabric.md R408,
R409): the choice of the variant, the slots of the phase, releases, the views handed to the stall root.
-/
namespace Sys2Proof.Machine

/-! ## Classes and shapes (R348, R350) -/

/-- The length of a context class of a partition. -/
def State.clen (s : State) (p c : Nat) : Nat := s.fld (rSch (0x100 + 8 * p + c)) 18 0

/-- The class of a request that needs `n` tokens: the smallest length that covers it, the lower class on a tie. -/
def State.classFor (s : State) (p n : Nat) : Option Nat :=
  (List.range 8).foldl (fun best c =>
    let l := s.clen p c
    if l ≠ 0 ∧ n ≤ l then
      match best with
      | some b => if l < s.clen p b then some c else best
      | none => some c
    else best) none

/-- The shape of a lane in a variant: kind, class budget, `NMAX` (Table 12-17). -/
def State.shape (s : State) (p v lane : Nat) : Nat × Nat × Nat :=
  let x := s.regN (rSch (0x2000 + 128 * p + 16 * v + lane / 2)) / 2 ^ (16 * (lane % 2))
  (x % 4, x / 4 % 8, x / 32 % 32)

/-- Does a group fit a lane of a variant (R348)? -/
def State.fits (s : State) (p v lane kind n cls : Nat) : Bool :=
  let (k, b, m) := s.shape p v lane
  (if kind = 1 then k == 1 else if kind = 2 then k != 0 else k == 3) && decide (n ≤ m) && decide (s.clen p cls ≤ s.clen p b)

/-- Is there room for one more request of a class: every assignment's slots cover the reservations (R350)? -/
def State.room (s : State) (p cls : Nat) : Bool :=
  let held := (s.reqs.filter (fun r => r.2.placed && r.2.part == p)).map (fun r => s.clen p r.2.cls)
  let need (a : Asg) : Nat := ((s.clen p cls :: held).map (fun l => (l + 16 * a.s - 1) / (16 * a.s))).foldl (· + ·) 0
  (s.part p).dir.all (fun r => r.2.asgs.all (fun a => a.s == 0 || decide (need a ≤ a.slots)))

/-! ## The variant (R349) -/

/-- The variants that fit all groups of a list: lane, kind, size, class. -/
def State.eligible (s : State) (p : Nat) (gs : List (Nat × Nat × Nat × Nat)) : List Nat :=
  (List.range (s.part p).variants).filter (fun v => gs.all (fun g => s.fits p v g.1 g.2.1 g.2.2.1 g.2.2.2))

/-- The least element of a list by a weight, the first on a tie. -/
def leastBy (f : Nat → Nat) : List Nat → Option Nat
  | [] => none
  | x :: xs =>
    match leastBy f xs with
    | some y => if f y < f x then some y else some x
    | none => some x

/-- Prefill positions of a variant. -/
def State.prefillRoom (s : State) (p v : Nat) : Nat :=
  (List.range (s.part p).lanes).foldl (fun a l => let x := s.shape p v l; if x.1 = 1 then a + x.2.2 else a) 0

/-- The variant chosen, the variants that new groups must fit, whether the preferred one is not yet eligible, whether a miss counts. The
preferred variant is the one that items 1 to 3 give when eligibility is left aside. -/
def State.chooseVariant (s : State) (p : Nat) (elig : List Nat) : Nat × List Nat × Bool × Bool :=
  let q := s.part p
  let cur := s.fld (rSch (0x150 + p)) 2 0
  let t (v : Nat) : Nat := q.beatLen.getD v 0
  let pol := rSch (0x140 + p)
  let mine := (s.reqs.filter (fun r => r.2.part == p)).map Prod.snd
  let goals := (mine.filter (fun r => r.state == 3)).map Req.tbtGoal
  let timely := (List.range q.variants).filter (fun v => goals.all (fun g => decide (Nat.max q.stages 1 * t v ≤ 1200 * g)))
  let work := mine.any (fun r => r.state == 1 || r.state == 2 || (r.state == 4 && r.resuming))
  if s.fld pol 1 1 = 1 then
    let f := s.fld pol 4 2
    if elig.contains f then (f, [f], false, false) else (cur, [cur, f], true, false)
  else
    match timely.filter elig.contains with
    | [] => let v := (leastBy t elig).getD cur; (v, [v], false, true)
    | _ =>
      let pref := if work then leastBy (fun v => 1024 - s.prefillRoom p v) timely else leastBy t timely
      match pref with
      | some f => if elig.contains f then (f, [f], false, false) else (cur, [cur, f], true, false)
      | none => (cur, [cur], false, false)

/-! ## Entries (Table 12-1) -/

/-- The bytes of a lane entry but for its variant and release. -/
def entBytes (r : Req) (e : Nat) (isNew : Bool) (g : Group) (toks : List Nat) : Bytes :=
  natLe 1 0 ++ natLe 1 (1 + 2 * b2n isNew + 16 * g.kind + 64 * b2n r.exp + 128 * b2n g.lastp) ++ natLe 1 (g.n + 32 * r.cls) ++
    natLe 1 0 ++ natLe 2 e ++ natLe 2 0 ++ natLe 4 g.pos0 ++ natLe 4 0 ++
    ((List.range 16).map (fun i => natLe 3 (toks.getD i 0))).flatten

/-- An entry of a lane that carries no group. -/
def emptyEnt : Bytes := List.replicate 64 0

/-- A release listed in an entry (R347 step 5). -/
def withRel (x : Bytes) (e : Nat) : Bytes :=
  x.take 1 ++ natLe 1 (leNat ((x.drop 1).take 1) % 8 + 8 + leNat ((x.drop 1).take 1) / 16 * 16) ++ (x.drop 2).take 4 ++ natLe 2 e ++ x.drop 8

/-- An entry with the variant of the beat (R340). -/
def withVariant (v : Nat) (x : Bytes) : Bytes := natLe 1 v ++ x.drop 1

/-- The list of a new beat as it fills: entries by lane, and the requests that have entered a group. -/
structure Filling where
  s : State
  ents : FMap Bytes
  done : List Nat

/-! ## Continuing groups (R338, R347 step 4, R358, R368) -/

/-- A counter has reached a value (R367). -/
def counterGe (c v : Nat) : Bool := decide ((c + 2 ^ 32 - v % 2 ^ 32) % 2 ^ 32 < 2 ^ 31)

/-- May a request of a pair enter its next group now (R358 items 2 and 3)? -/
def State.pairReady (s : State) (r : Req) : Bool :=
  if r.draft then
    decide (r.produced < r.ndraft) || (r.proxy.isNone && counterGe (fget 0 s.sync ((r.dctr + 1) % 65536)) (r.rounds + 1))
  else if r.spec then counterGe (fget 0 s.sync (r.dctr % 65536)) (r.ndraft * (r.rounds + 1)) && decide (r.ndraft ≤ r.drafts.length)
  else true

/-- The position at which a Decode request continues; none while the word of its last group is missing. While the serving scheduler is
down the sheet engine takes `ACCEPT` from the words that wait. -/
def State.nextPos (s : State) (p lane e : Nat) : Option Nat :=
  let q := s.part p
  let open_ := q.groups.filter (fun g => g.entry == e && (g.kind != 1 || g.lastp))
  if open_ = [] then some (s.req e).pos
  else if s.schUp then none
  else
    let ws := q.words.filter (fun w => w.1 == lane && leNat ((w.2.drop 8).take 2) % 8192 == e)
    match ws[open_.length - 1]?, open_.getLast? with
    | some w, some g => some (if g.kind = 1 then (s.req e).pos else g.pos0 + wordByte w.2 4 % 16)
    | _, _ => none

/-- The request that holds a slot. -/
def State.holder (s : State) (p ph lane : Nat) : Option Nat :=
  (s.reqs.find? (fun r => r.2.part == p && r.2.state != 0 && r.2.held.contains (ph, lane))).map Prod.fst

/-- The group with which a Decode request continues in its slot: first position and kind and size, if it may enter. -/
def State.decodeGroup (s : State) (p lane e : Nat) : Option (Nat × Nat × Nat) :=
  let r := s.req e
  if r.state ≠ 3 ∨ r.late ∨ r.parking ∨ s.hasHeld e then none
  else if s.schUp = false ∧ (r.spec ∨ r.draft ∨ r.promptLen + r.maxNew ≤ r.pos ∨ (r.hard ∧ r.dlv ∧ r.deadline ≤ s.now)) then none
  else
    match s.nextPos p lane e with
    | none => none
    | some pos =>
      if s.pairReady r then (if r.spec then some (pos, 3, 1 + r.ndraft) else some (pos, 2, 1)) else none

/-- The size of the next prefill group of a request in a lane under all of some variants; 0: none fits. -/
def State.chunk (s : State) (p lane e : Nat) (vs : List Nat) : Nat :=
  let r := s.req e
  let n := vs.foldl (fun n v => Nat.min n (s.shape p v lane).2.2) (Nat.min 16 (r.promptLen - r.pos))
  if n ≠ 0 ∧ vs.all (fun v => s.fits p v lane 1 n r.cls) then n else 0

/-- A group enters the first stage in a beat and lane. -/
def Filling.enter (f : Filling) (p nb lane e pos0 kind n : Nat) : Filling :=
  let q := f.s.part p
  let r := f.s.req e
  let ph := nb % Nat.max q.stages 1
  let lastp := kind == 1 && decide (pos0 + n = r.promptLen)
  let g : Group := { beat := nb, lane := lane, entry := e, pos0 := pos0, n := n, kind := kind, lastp := lastp }
  let prev := (q.history.headD []).getD lane emptyEnt
  let isNew := !(entOcc prev && entMap prev == e)
  let looped := if f.s.followers p = [] then 0 else r.lastTok
  let toks := if kind = 1 then (r.prompt.drop pos0).take n else looped :: (if kind = 3 then r.drafts.take r.ndraft else [])
  let alone := r.held = []
  let held := if lastp ∨ alone then [(ph, lane)] else if r.held.contains (ph, lane) then r.held else r.held ++ [(ph, lane)]
  let again := r.draft && decide (r.ndraft ≤ r.produced)
  let s := f.s.setReq e { r with
    pos := pos0 + n, held := held, placed := true, lane := if lastp ∨ alone then lane else r.lane
    phase := if lastp ∨ alone then ph else r.phase
    produced := if again then 0 else r.produced, rounds := if again then r.rounds + 1 else r.rounds }
  let s := if r.state = 1 then s.reqState e 2 else s
  let s := s.updPart p (fun q => { q with groups := q.groups ++ [g] })
  { s := s, ents := fset [] f.ents lane (entBytes r e isNew g toks), done := e :: f.done }

/-- The continuing groups of a phase. -/
def Filling.continuing (f : Filling) (p nb : Nat) (vs : List Nat) : Filling :=
  let q := f.s.part p
  (List.range q.lanes).foldl (fun f lane =>
    match f.s.holder p (nb % Nat.max q.stages 1) lane with
    | none => f
    | some e =>
      let r := f.s.req e
      if f.done.contains e then f
      else if r.state = 2 then
        let n := f.s.chunk p lane e vs
        if n = 0 ∨ r.late ∨ f.s.schUp = false ∨ f.s.hasHeld e then f else f.enter p nb lane e r.pos 1 n
      else
        match f.s.decodeGroup p lane e with
        | some (pos, kind, n) => if vs.all (fun v => f.s.fits p v lane kind n r.cls) then f.enter p nb lane e pos kind n else f
        | none => f) f

/-! ## Admissions (R349, R350, R474) -/

/-- The forecast of a replica: the largest over the isles of its cores, as a signed number of eighths of a degree above -256 C. -/
def State.replicaHeat (s : State) (p rep : Nat) : Nat :=
  let q := s.part p
  (q.coreRep.filter (fun c => c.2 == rep + 1)).foldl (fun m c =>
    let f := s.fld (rThm (0x200 + s.physIsle (cIsle (s.dirCore q c.1)))) 11 0
    Nat.max m ((f + 2048) % 4096)) 0

/-- The order in which free lanes are taken. -/
def State.laneOrder (s : State) (p : Nat) (free : List Nat) : List Nat :=
  let q := s.part p
  if s.fld (rThm 8) 0 0 = 0 then free
  else
    let reps := ((q.coreRep.map (fun c => c.2 - 1)).eraseDups)
    let cool := (reps.map (s.replicaHeat p)).foldl Nat.min 4096
    let heat (l : Nat) : Nat := match fget 0 q.laneRep l with
      | 0 => cool
      | r + 1 => s.replicaHeat p r
    (free.map (fun l => heat l * 64 + l)).mergeSort.map (· % 64)

/-- The work that waits for a slot, by urgency and entry. -/
def State.waiting (s : State) (p : Nat) (done : List Nat) : List Nat :=
  let q := s.part p
  let admitted := s.fld (rSch (0x140 + p)) 0 0 == 1
  let cands := s.reqs.filter (fun x =>
    let r := x.2
    r.part == p && !r.late && !done.contains x.1 && !s.hasHeld x.1 && !q.relQ.contains x.1 && !(q.relOut.map Prod.fst).contains x.1 &&
      ((r.state == 1 && admitted) || (r.state == 2 && decide (r.pos < r.promptLen)) || (r.state == 4 && r.resuming && r.held == [])))
  let key (x : Nat × Req) : Nat :=
    ((if x.2.state = 4 then x.2.tLast + 1000 * x.2.tbtGoal else x.2.tArrive + 1000 * x.2.ttftGoal)) * 8192 + x.1
  (cands.map key).mergeSort.map (· % 8192)

/-- Waiting work enters free slots of the phase; a resuming request takes a slot and enters when it has been restored. -/
def Filling.admitNew (f : Filling) (p nb : Nat) (vs : List Nat) : Filling :=
  let q := f.s.part p
  let ph := nb % Nat.max q.stages 1
  (f.s.waiting p f.done).foldl (fun f e =>
    let r := f.s.req e
    let free := (List.range q.lanes).filter (fun l => (f.s.holder p ph l).isNone && fget [] f.ents l == [])
    let lanes := f.s.laneOrder p free
    if r.state ≠ 2 ∧ f.s.room p r.cls = false then f
    else if r.state = 4 then
      match lanes.find? (fun l => vs.all (fun v => f.s.fits p v l 2 1 r.cls)) with
      | some l => { f with s := f.s.setReq e { r with held := [(ph, l)], placed := true, lane := l, phase := ph } }
      | none => f
    else
      match lanes.find? (fun l => f.s.chunk p l e vs != 0) with
      | some l => f.enter p nb l e r.pos 1 (f.s.chunk p l e vs)
      | none => f) f

/-! ## Releases and views (R347 steps 5 and 6) -/

/-- The releases that can be listed: no view of the new beat names the request, and no void message for it is on its way. -/
def State.releasable (s : State) (p : Nat) (lists : List (List Bytes)) : List Nat :=
  (s.part p).relQ.filter (fun e =>
    !lists.any (fun l => l.any (fun x => entOcc x && entMap x == e)) &&
    !s.net.any (fun l => match l.msg with
      | .vc3 (.void _ k) => k == e
      | _ => false) &&
    !(s.partCores (s.part p)).any (fun c => (s.core c).uq.any (fun u => u.act == .void e)))

/-- The views of a beat (R339): stage `k` sees the list that entered `k` beats earlier, under the beat's variant. -/
def viewsOf (stages lanes v : Nat) (lists : List (List Bytes)) : List (List Bytes) :=
  (List.range stages).map (fun k =>
    let l := lists.getD k []
    (List.range lanes).map (fun i => withVariant v (l.getD i emptyEnt)))

/-- The stall root distributes a sheet over VC3: to every core the lines of its stage's view (R203, R339). -/
def State.distribute (s : State) (p : Nat) (views : List (List Bytes)) : State :=
  let q := s.part p
  let root := s.rootOf q
  let view (c : CoreId) : List Bytes := views.getD (s.coreRec c).stage []
  let msgs := ((s.partCores q).map (fun c => (view c).zipIdx.map (fun x => (c, Vc3Msg.sheetLine c x.2 x.1)))).flatten
  msgs.foldl (fun s m => s.sendVc3 root m.1 m.2) (s.setPart p { q with sheet := some views, sheetLeft := msgs.length })

/-- The new list handed over: history, views, variant status. -/
def State.handOver (s : State) (p v : Nat) (ents : List Bytes) : State :=
  let q := s.part p
  let st := Nat.max q.stages 1
  let hist := (ents.map (withVariant v) :: q.history).take st
  (s.setPart p { q with history := hist }).distribute p (viewsOf st q.lanes v hist)

/-- The number of the beat that the next sheet is for (R337). -/
def Part.nextBeat (q : Part) : Nat := if q.begun then q.beat + 1 else 0

/-- A leader's or a device's own partition: steps 1 and 3 to 6 of R347. From an accepted `SWAP` until its hold no new token enters a sheet (R323); the
sheet built in the hold is that of the first beat on the new version. -/
def State.assemble (s : State) (p : Nat) : State :=
  let up := s.schUp
  let s := if up then
      let ws := (s.part p).words
      ws.foldl (fun s w => s.wordIn p w.1 w.2) (s.updPart p (fun q => { q with words := [] }))
    else s
  let q := s.part p
  let nb := q.nextBeat
  let st := Nat.max q.stages 1
  let q := { q with groups := q.groups.filter (fun g => decide (nb < g.beat + st) || g.kind != 1 || g.lastp) }
  let s := s.setPart p q
  let closed := (!q.held && (q.barrier || q.wop.isSome)) || q.unloading
  let past := q.history.take (st - 1)
  let flight := ((past.map (fun l => (l.zip (List.range q.lanes)).filterMap (fun x =>
    if entOcc x.1 then some (x.2, entKind x.1, entN x.1, entClass x.1) else none))).flatten)
  let cont := if closed then [] else (List.range q.lanes).filterMap (fun l =>
    (s.holder p (nb % st) l).bind (fun e => (s.decodeGroup p l e).map (fun g => (l, g.2.1, g.2.2, (s.req e).cls))))
  let cur := s.fld (rSch (0x150 + p)) 2 0
  let (v, vs, taper, miss) := if up then s.chooseVariant p (s.eligible p (flight ++ cont)) else (cur, [cur], s.fld (rSch (0x150 + p)) 3 3 == 1, false)
  let s := s.setFld (rSch (0x150 + p)) 3 3 (b2n taper)
  let s := if miss then s.satFld (rSch (0x150 + p)) 31 16 1 else s
  let f : Filling := { s := s, ents := [], done := [] }
  let f := if closed then f else f.continuing p nb vs
  let f := if closed || !up then f else f.admitNew p nb vs
  let ents := (List.range q.lanes).map (fun l => let x := fget [] f.ents l; if x = [] then emptyEnt else x)
  let rel := if up then (f.s.releasable p (ents :: past)).take q.lanes else []
  let ents := (ents.zip (List.range q.lanes)).map (fun x => match rel[x.2]? with
    | some e => withRel x.1 e
    | none => x.1)
  let s := f.s.updPart p (fun q => { q with relQ := q.relQ.filter (fun e => !rel.contains e), relOut := q.relOut ++ rel.map (fun e => (e, nb)) })
  let s := (s.followers p).foldl (fun (s : State) d =>
    s.fabMessage (devAddr d.1) 1 0x08 0 (natLe 1 d.2 ++ natLe 8 nb) (ents.map (withVariant v))) s
  s.handOver p v ents

/-- A follower's sheet (R409): the forwarded entries of the beat, once they and the gate firings that feed the beat have arrived. -/
def State.follow (s : State) (p : Nat) : State :=
  let q := s.part p
  let nb := q.nextBeat
  let v := s.reg64 (rCwy (0x40 + 2 * p))
  let ctr := v / 2 ^ 16 % 65536
  let per := v / 2 ^ 32 % 16
  let ents := fget [] q.fwd nb
  if ents = [] ∨ counterGe (fget 0 s.sync ctr) (per * nb) = false then s
  else (s.updPart p (fun q => { q with fwd := fset [] q.fwd nb [] })).handOver p (entVariant (ents.headD emptyEnt)) ents

/-- Is a partition a follower (Table 14-12)? -/
def State.isFollower (s : State) (p : Nat) : Bool := s.fld (rCwy (0x40 + 2 * p)) 15 15 == 1

/-- `SHEET_ASSEMBLY` (R347): the sheet of the next beat is built and handed to the stall root. -/
def execSheetAssembly (part : Nat) (s : State) : Res :=
  let q := s.part part
  if !q.loaded || !q.liveValid || !q.started || (q.held && q.wop.isNone) || q.halted || q.sheet.isSome then .next s
  else if s.isFollower part then .next (s.follow part)
  else .next (s.assemble part)

end Sys2Proof.Machine
end

