-- ==== Sys2Proof/Machine/Serve.lean ====
section
/-!
DEFINITION. The requests' commands (12_serving_engine.md R341 to R366; 13_host_attachment.md R382 to R385): the poll, submission records,
parking and resuming, releases, deadlines, completion rings, sync counters.
-/
namespace Sys2Proof.Machine

/-! ## Submission records (Table 12-5, R344) -/

/-- A little-endian field of a record. -/
def recN (r : Bytes) (at_ n : Nat) : Nat := leNat ((r.drop at_).take n)

/-- Is a partition one that a function may name in its records (R343, R374)? -/
def State.owns (s : State) (fn p : Nat) : Bool :=
  decide (p < 8) && (fn == 0 ||
    (let v := s.regN (rHost 0 (0x400 + 4 * (fn - 1))); bits v 3 3 == 1 && bits v 2 0 == p))

/-- The function through which the host memory of a partition is read: the VF that owns it, else the PF. -/
def State.dmaFn (s : State) (p : Nat) : Nat := ((List.range 8).find? (fun n => s.owns (n + 1) p)).elim 0 (· + 1)

/-- The record that SCH reads next, if it is the given one of a function (R345): its ring. None while SCH is down (R368). -/
def State.headSub (s : State) (fn : Nat) (record : Bytes) : Option Nat :=
  match s.subq with
  | (f, q, r) :: _ => if s.schUp ∧ s.serves ∧ f = fn ∧ r = record ∧ record.length = 128 then some q else none
  | [] => none

/-- The head record is consumed: the ring's consumer index moves on. -/
def State.consume (s : State) (fn q : Nat) : State :=
  let r := sqReg fn q 5
  let n := s.fld (sqReg fn q 4) 15 0
  let s := { s with subq := s.subq.drop 1 }
  (s.setFld r 15 0 (if n = 0 then 0 else (s.fld r 15 0 + 1) % n)).setFld r 17 17 0

/-- The head record stays unconsumed and is read again at the next poll (R345 item 1): the ring's other fetched records with it. -/
def State.leave (s : State) (fn q : Nat) : State :=
  { s with subq := s.subq.filter (fun x => !(x.1 == fn && x.2.1 == q)) }.setFld (sqReg fn q 5) 17 17 1

/-- A failed host read stops its ring (R383). -/
def State.stopRing (s : State) (fn : Nat) (kind : RingKind) (q : Nat) : State :=
  let s := s.satFld (rHost fn 5) 23 16 1
  match kind with
  | .sq =>
    let s := { s with subq := s.subq.filter (fun x => !(x.1 == fn && x.2.1 == q)) }.setFld (sqReg fn q 5) 16 16 1
    s.log { cls := 1, source := 81, bit := 16, reg := 0x105 + 8 * q, a := fn, b := q }
  | .cq => (s.setFld (cqReg fn q 6) 17 17 1).log { cls := 1, source := 81, bit := 17, reg := 0x206 + 8 * q, a := fn, b := q }
  | .ev => (s.setFld (rTel 4) 31 31 1).log { cls := 1, source := 81, bit := 31, reg := 4, a := fn, b := q }

/-- Line 0 and the bias lines of a sampling record (Table 12-6, R352). -/
def samplingRecord (r bias : Bytes) : Bytes :=
  (r.drop 44).take 12 ++ (r.drop 56).take 2 ++ (r.drop 58).take 1 ++ (r.drop 59).take 1 ++ (r.drop 64).take 8 ++ (r.drop 80).take 32 ++
    List.replicate 8 0 ++ (bias ++ List.replicate 512 0).take 512

/-- Bytes written to a slice as background claims of priority 5, line by line (R296 item 5). -/
def State.bgWrite (s : State) (c : CoreId) (off : Nat) (bs : Bytes) : State :=
  (List.range ((bs.length + 63) / 64)).foldl (fun s i =>
    s.claim c { prio := 5, off := off + 64 * i, kind := .write (piece bs i) }) s

/-- The sampling record of an entry goes to every sampling core of its partition (R352). -/
def State.putSampling (s : State) (p e : Nat) (bs : Bytes) : State :=
  let q := s.part p
  q.dir.foldl (fun s r =>
    if r.2.sampBase = 0xFFFFFFFF then s else s.bgWrite (s.dirCore q r.1) (r.2.sampBase + 576 * e) bs) s

/-- The lowest Free entry from a number on (R345 item 5). -/
def State.freeFrom (s : State) (e : Nat) : Option Nat := (List.range 8192).find? (fun i => decide (e ≤ i) && (s.req i).state == 0)

/-- An `END` for a `SUBMIT` that takes no entry (R345). -/
def State.noEntry (s : State) (fn : Nat) (r : Bytes) (status : Nat) : State :=
  s.cqPost fn (recN r 60 1 % 16) none false (s.complBytes 3 0 0 status 6 (recN r 16 8) 0 [])

/-- A new entry from a `SUBMIT` record (Table 12-3). -/
def newReq (s : State) (fn p cls : Nat) (r : Bytes) (prompt : List Nat) (samp : Bytes) : Req :=
  let fl := recN r 2 1
  { state := 0, part := p, hard := fl % 2 == 1, exp := fl / 2 % 2 == 1, dlv := fl / 8 % 2 == 1, cls := cls
    promptLen := recN r 4 4 % 2 ^ 19, maxNew := recN r 24 4, ttftGoal := recN r 28 4, tbtGoal := recN r 32 4, deadline := recN r 36 8
    tArrive := s.now, user := recN r 16 8, promptAddr := recN r 8 8, cring := recN r 60 1 % 16, func := fn, prompt := prompt
    ndraft := recN r 3 1 % 16, dctr := recN r 62 2
    stops := ((List.range (recN r 58 1 % 16)).map (fun i => recN r (80 + 4 * i) 4)), samp := samp }

/-- An entry is taken (R345 item 5): Queued, sampling record written, `ADMITTED`. -/
def State.admitReq (s : State) (e : Nat) (r : Req) : State :=
  let s := ((s.setReq e r).reqState e 1).putSampling r.part e r.samp
  s.compl e 1 0 0 false false []

/-- The device and partition that a proxy partition number stands for (Table 14-14). -/
def State.proxyOf (s : State) (p : Nat) : Option (Nat × Nat) :=
  let v := s.regN (rCwy (0x60 + p))
  if bits v 15 15 = 1 ∧ (s.part p).loaded = false then some (bits v 11 0, bits v 14 12) else none

/-- `SUBMIT` (R343, R345, R350, R358, R409, R410): `prompt` and `bias` are what the host reads return, none for a failed read. -/
def execSubmit (fn ring : Nat) (record : Bytes) (prompt : Option (List Nat)) (bias : Option Bytes) (s : State) : Res :=
  match s.headSub fn record with
  | none => .next s
  | some q =>
    let p := recN record 1 1
    let dp := recN record 61 1 % 8
    let spec := recN record 2 1 / 4 % 2 == 1
    let nd := recN record 3 1 % 16
    if q ≠ ring ∨ recN record 0 1 ≠ 1 then .next s
    else if s.owns fn p = false ∨ ringsOf fn ≤ recN record 60 1 % 16 ∨ 8 < recN record 58 1 % 16 ∨ 64 < recN record 59 1 % 128 ∨
        2 ^ 18 < recN record 4 4 % 2 ^ 19 ∨ (spec ∧ (nd = 0 ∨ 8 < nd)) then .fault (.unpredictable .record)
    else
      let local_ := spec && (s.proxyOf dp).isNone
      match s.freeFrom 0 with
      | none => .next (s.leave fn q)
      | some e =>
        let e2 := s.freeFrom (e + 1)
        if local_ && e2.isNone then .next (s.leave fn q)
        else
          let serves (p : Nat) : Bool := (s.part p).loaded && (s.part p).liveValid && !s.isFollower p
          let total := recN record 4 4 % 2 ^ 19 + recN record 24 4 + nd
          if serves p = false ∨ (local_ && !serves dp) then .next ((s.consume fn q).noEntry fn record 0x0D)
          else
            let cd := if local_ then s.classFor dp total else some 0
            match s.classFor p total, cd with
            | some c, some cd =>
              if recN record 4 4 % 2 ^ 19 = 0 then .next ((s.consume fn q).noEntry fn record 2)
              else
                match prompt, bias with
                | some toks, some b =>
                  let s := s.consume fn q
                  let samp := samplingRecord record b
                  let r := newReq s fn p c record (toks.map (· % 2 ^ 24)) samp
                  match spec, s.proxyOf dp, e2 with
                  | true, some (dev, rp), _ =>
                    let s := s.admitReq e { r with spec := true, proxy := some dev, rpart := rp }
                    .next (s.sendProxy dev (.create rp r.prompt [samp] (record ++ natLe 2 e ++ natLe 2 p)))
                  | true, none, some d =>
                    let s := s.admitReq e { r with spec := true, link := d }
                    .next (s.admitReq d { r with part := dp, cls := cd, draft := true, link := e })
                  | _, _, _ => .next (s.admitReq e r)
                | _, _ => .next (s.stopRing fn .sq q)
            | _, _ => .next ((s.consume fn q).noEntry fn record 0x0C)

/-- The entry that a record of another kind names (R342, R344): 8,191 at most, not Free, with the record's `USER`. -/
def State.named (s : State) (r : Bytes) : Option Nat :=
  let e := recN r 4 2
  if e < 8192 ∧ (s.req e).state ≠ 0 ∧ (s.req e).user = recN r 16 8 then some e else none

/-- What a record of kinds 2 to 5 does: consumed, then its effect where a row of Table 12-4 applies, else a `MISS`. -/
def State.onRecord (s : State) (fn : Nat) (record : Bytes) (kind : Nat) (ok : Nat → Bool) (act : Nat → State → State) : Res :=
  match s.headSub fn record with
  | none => .next s
  | some q =>
    if recN record 0 1 ≠ kind then .next s
    else if s.owns fn (recN record 1 1) = false then .fault (.unpredictable .record)
    else
      let s := s.consume fn q
      match s.named record with
      | some e => if ok e then .next (act e s) else .next (s.miss fn record)
      | none => .next (s.miss fn record)

/-- `CANCEL` (R359). -/
def execCancel (fn : Nat) (record : Bytes) (s : State) : Res :=
  s.onRecord fn record 2 (fun e => let st := (s.req e).state; decide (1 ≤ st) && decide (st ≤ 4)) (fun e s => s.cancelReq e 3 true)

/-- The assignments of a partition's shard cores, in directory order: core, assignment number, assignment. -/
def State.shards (s : State) (p : Nat) : List (CoreId × Nat × Asg) :=
  let q := s.part p
  (q.dir.map (fun r => (r.2.asgs.zip (List.range 8)).map (fun a => (s.dirCore q r.1, a.2, a.1)))).flatten

/-- The cabinet lines of an entry in one assignment of a shard core, in the order of its park area: the map record and the drawers it
lists (R362 item 2). -/
def State.areaLines (s : State) (x : CoreId × Nat × Asg) (e : Nat) : List Nat :=
  let a := x.2.2
  let rec_ := s.cabBytes x.1 (a.recordAt e) (64 * a.stride)
  linesAt (a.recordAt e) a.stride ++ ((List.range (mapCount rec_)).map (fun k => ((List.range a.h).map (fun h =>
    linesAt (a.drawerAt (mapSlot rec_ k) h) (drawerLines a.format))).flatten)).flatten

/-- The park area of an entry (R362 item 2, R363). -/
def State.areaBytes (s : State) (e : Nat) : Bytes :=
  let r := s.req e
  let head := natLe 4 1 ++ natLe 2 e ++ natLe 2 0 ++ natLe 8 r.user ++ natLe 4 r.pos ++ natLe 4 r.lastTok ++ natLe 8 r.tExpire ++
    List.replicate 32 0
  head ++ ((s.shards r.part).map (fun x => ((s.areaLines x e).map (fun l => s.rdLine x.1 spCabinet (64 * l))).flatten)).flatten

/-- The copy of a parking request begins once no group of it is in flight (R362 items 1 and 2): its lines are claimed at priority 5. -/
def State.parkCopy (s : State) (e : Nat) : State :=
  let r := s.req e
  if r.parking && r.state == 3 && !r.copying && !(s.part r.part).running e then
    (s.shards r.part).foldl (fun (s : State) x =>
      (s.areaLines x e).foldl (fun (s : State) l => s.claim x.1 { prio := 5, off := 64 * l, kind := .park e }) s)
      (s.setReq e { r with copying := true })
  else s

/-- `PARK` (R362): a Decode request that is not part of a pair enters no further group. -/
def execPark (fn : Nat) (record : Bytes) (s : State) : Res :=
  s.onRecord fn record 3 (fun e => let r := s.req e; r.state == 3 && !r.spec && !r.draft && !r.parking)
    (fun e s => (s.updReq e (fun r => { r with parking := true, parkAddr := recN record 24 8, ttl := recN record 32 4 })).parkCopy e)

/-- `RESUME` (R365): the Parked request waits for a slot. -/
def execResume (fn : Nat) (record : Bytes) (s : State) : Res :=
  s.onRecord fn record 4 (fun e => let r := s.req e; r.state == 4 && !r.resuming) (fun e s => s.updReq e (fun r => { r with resuming := true }))

/-- `DROP` (R364). -/
def execDrop (fn : Nat) (record : Bytes) (s : State) : Res :=
  s.onRecord fn record 5 (fun e => (s.req e).state == 4) (fun e s => (s.markArea e 2).endIdle e 0x0A)

/-! ## Parking (R362 to R365) -/

/-- `PARK_COPY_DONE` (R362 items 2 to 4): the lines of its area have been read, the area is written to the host; its release is due, its slot and
reservation are free, it is Parked. -/
def execParkCopyDone (entry : Nat) (s : State) : Res :=
  let r := s.req entry
  if r.parking = false ∨ r.state ≠ 3 ∨ s.schUp = false ∨ (s.part r.part).running entry then .next s
  else if r.copying = false then .next (s.parkCopy entry)
  else if s.copyWaits entry then .next s
  else
    let s := s.setReq entry { r with tExpire := (s.now + 1000000 * r.ttl) % 2 ^ 64 }
    let s := s.send (.hostWrite r.func r.parkAddr (s.areaBytes entry))
    let s := s.updReq entry (fun r => { r with parking := false, copying := false, held := [], placed := false })
    let s := s.updPart r.part (fun q => { q with relQ := q.relQ ++ [entry] })
    .next ((s.reqState entry 4).compl entry 4 0 0 false false [])

/-- The restored contents of one assignment from the area at a byte (R365 item 1): fresh slots from the free list, drawers and map record;
with the byte that follows in the area. -/
def State.restore (s : State) (x : CoreId × Nat × Asg) (e : Nat) (area : Bytes) (at_ : Nat) : State × Nat :=
  let a := x.2.2
  let c := x.1
  let rec_ := (area.drop at_).take (64 * a.stride)
  let cnt := Nat.min (mapCount rec_) a.kmax
  let size := a.h * drawerBytes a.format
  let from_ := at_ + 64 * a.stride
  let put (s : State) (off : Nat) (bs : Bytes) : State := s.claim c { prio := 5, off := off, kind := .restore e bs }
  let one (st : State × List Nat) (k : Nat) : State × List Nat :=
    let s := st.1
    let free := s.freeSlots c x.2.1
    let sl := leNat (s.cabBytes c (freeEntry x.2.1 (free - 1)) 2)
    let s := s.setFld (s.sreg c (0x880 + x.2.1)) 15 0 (free - 1)
    let bs := (area.drop (from_ + k * size)).take size
    ((List.range (size / 64)).foldl (fun s l => put s (a.drawerAt sl 0 + 64 * l) (piece bs l)) s, st.2 ++ [sl])
  let n := Nat.min cnt (s.freeSlots c x.2.1)
  let (s, slots) := (List.range n).foldl one (s, [])
  let body := (slots.map (natLe 2)).flatten
  let bs := natLe 2 n ++ (rec_.drop 2).take 2 ++ body ++ rec_.drop (4 + body.length)
  ((List.range a.stride).foldl (fun s l => put s (a.recordAt e + 64 * l) (piece bs l)) s, from_ + cnt * size)

/-- `RESUME_PLACED` (R365, R383): the drawers and maps of a request that has found a slot are restored from its park area, as claims of
priority 5; once they are written it continues in Decode (log entry 107). A failed read leaves it Parked and frees the slot. -/
def execResumePlaced (entry : Nat) (area : Option Bytes) (s : State) : Res :=
  let r := s.req entry
  if r.state ≠ 4 ∨ r.resuming = false ∨ r.held = [] ∨ s.schUp = false then .next s
  else if r.copying then
    (if s.copyWaits entry then .next s
     else
       let s := (s.markArea entry 3).updReq entry (fun r => { r with resuming := false, copying := false })
       .next ((s.reqState entry 3).compl entry 5 0 0 false false []))
  else
    match area with
    | none => .next (s.setReq entry { r with held := [], placed := false })
    | some bs =>
      .next ((s.shards r.part).foldl (fun (st : State × Nat) x => st.1.restore x entry bs st.2) (s.setReq entry { r with copying := true }, 64)).1

/-- `PARK_EXPIRY` (R364); a `RESUME` read before it decides (R361). -/
def execParkExpiry (entry : Nat) (s : State) : Res :=
  let r := s.req entry
  if r.state ≠ 4 ∨ r.resuming ∨ s.now < r.tExpire ∨ s.schUp = false then .next s
  else .next ((s.markArea entry 2).endIdle entry 9)

/-! ## Words, voids, releases, deadlines -/

/-- `LANE_STATE_WORD_RECEIVED` (R347 step 1): SCH takes the oldest waiting word of a partition. -/
def execLaneStateWordReceived (part lane : Nat) (word : Bytes) (s : State) : Res :=
  let q := s.part part
  match q.words with
  | w :: ws => if s.schUp ∧ w = (lane, word) then .next (((s.setPart part { q with words := ws }).wordIn part lane word).parkCopy (leNat ((word.drop 8).take 2) % 8192))
    else .next s
  | [] => .next s

/-- `VOID_MESSAGE` (R359 item 3): a void message on its way to a core arrives. -/
def execVoidMessage (core : CoreId) (entry : Nat) (s : State) : Res :=
  .next (s.vc3Arrives (fun _ m => m == .void core entry))

/-- A release is complete (R342, R151): an ending request's `END` is written. -/
def State.released (s : State) (p e : Nat) : State :=
  let s := s.updPart p (fun q => { q with relQ := q.relQ.filter (· != e), relOut := q.relOut.filter (fun x => x.1 != e) })
  if (s.req e).state ≥ 5 then s.endRec e else s

/-- `RELEASE_COMPLETE` (R342, R201 item 3): the beat in which the last stage runs the release has ended. -/
def execReleaseComplete (entry : Nat) (s : State) : Res :=
  let p := (s.req entry).part
  let q := s.part p
  match q.relOut.find? (fun x => x.1 == entry) with
  | some x => if s.schUp ∧ q.begun ∧ x.2 + Nat.max q.stages 1 ≤ q.beat then .next (s.released p entry) else .next s
  | none => .next s

/-- A deadline met (R360). -/
def State.deadline (s : State) (e : Nat) : State :=
  let r := s.req e
  if r.state = 1 ∨ r.state = 4 then s.cancelReq e 4 false
  else if r.state ≠ 2 ∧ r.state ≠ 3 then s
  else if r.hard then s.cancelReq e 4 false
  else
    let s := s.setReq e { r with late := true }
    if (s.part r.part).running e then s else s.endReq e 6 5

/-- `DEADLINE_CHECK` (R360). -/
def execDeadlineCheck (s : State) : Res :=
  if s.schUp then
    .next (((s.reqs.map Prod.fst).filter (fun e => (s.req e).dlv && decide ((s.req e).deadline ≤ s.now))).foldl State.deadline s)
  else .next s

/-! ## Rings -/

/-- `COMPLETION_RECORD_WRITE` (R384 item 3). -/
def execCompletionRecordWrite (fn ring : Nat) (s : State) : Res :=
  if 8 < fn ∨ ringsOf fn ≤ ring then .next s else .next (s.cqFlush fn ring ((s.ring fn 1 ring).held.length + 1))

/-- `MSIX_MODERATION_TIMER` (R385 item 2). -/
def execMsixModerationTimer (fn ring : Nat) (s : State) : Res :=
  let r := s.ring fn 1 ring
  if fn ≤ 8 ∧ ring < ringsOf fn ∧ r.unsig ≠ 0 ∧ r.oldest + 1000 * s.fld (cqReg fn ring 5) 23 8 ≤ s.now then
    .next ((s.setRing fn 1 ring { r with unsig := 0 }).msix fn (s.fld (cqReg fn ring 4) 27 17))
  else .next s

/-- A ring's control, status and index registers, its kind's code. -/
def ringCtl (fn : Nat) (kind : RingKind) (q : Nat) : Nat :=
  match kind with
  | .sq => sqReg fn q 4
  | .cq => cqReg fn q 4
  | .ev => rTel 4
def ringCode : RingKind → Nat
  | .sq => 0
  | .cq => 1
  | .ev => 2

/-- Has a ring stopped (R383)? -/
def State.ringErr (s : State) (fn : Nat) (kind : RingKind) (q : Nat) : Bool :=
  match kind with
  | .sq => s.fld (sqReg fn q 5) 16 16 == 1
  | .cq => s.fld (cqReg fn q 6) 17 17 == 1
  | .ev => s.fld (rTel 4) 31 31 == 1

/-- Is a ring polled (R382): enabled, its function in D0 with an accepted version, not stopped, submission rings only while SCH runs? -/
def State.polled (s : State) (r : PollRead) : Bool :=
  s.fld (ringCtl r.fn r.kind r.q) 16 16 == 1 && !s.inD3 r.fn && s.fld (rHost r.fn 1) 1 0 == 1 && !s.ringErr r.fn r.kind r.q &&
    s.ideOk r.fn && (r.kind != .ev || r.fn == 0) && (r.kind != .sq || s.schUp) && (if r.kind == .ev then s.devState != 0 && s.devState != 10 else s.serves) && (r.kind == .ev || (decide (r.fn ≤ 8) && decide (r.q < ringsOf r.fn)))

/-- A ring's index pair and records as one poll read them. -/
def State.pollOne (s : State) (r : PollRead) : State :=
  if s.polled r = false then s
  else if r.ok = false then s.stopRing r.fn r.kind r.q
  else
    let k := ringCode r.kind
    let x := s.ring r.fn k r.q
    let n := s.fld (ringCtl r.fn r.kind r.q) 15 0
    match r.kind with
    | .sq =>
      let s := if x.ready then s else s.setFld (sqReg r.fn r.q 5) 15 0 r.devIdx
      let waiting := (s.subq.filter (fun y => y.1 == r.fn && y.2.1 == r.q)).length
      let from_ := (s.fld (sqReg r.fn r.q 5) 15 0 + waiting) % n
      let new := Nat.min 16 ((r.hostIdx + n - from_) % n)
      let recs := r.recs.take new
      let s := s.setRing r.fn k r.q { x with ready := true, host := r.hostIdx, dirty := x.dirty || recs != [] }
      { s with subq := s.subq ++ recs.map (fun b => (r.fn, r.q, b)) }
    | .cq =>
      let s := if x.ready then s else s.setFld (cqReg r.fn r.q 6) 15 0 r.devIdx
      let s := s.setRing r.fn k r.q { x with ready := true, host := r.hostIdx }
      s.cqFlush r.fn r.q (x.held.length + 1)
    | .ev =>
      let s := s.setRing r.fn k r.q { x with ready := true, host := r.hostIdx, unsig := x.unsig }
      if x.ready then s else s.setRegN evIdx r.devIdx
where
  /-- The device's index of the event ring. -/
  evIdx : Nat := rTel 5

/-- The consumer indices of the rings fetched from are written (R382 item 4). -/
def State.writeConsumers (s : State) : State :=
  (s.rings.filter (fun r => r.2.dirty)).foldl (fun s r =>
    let fn := r.1 / 64
    let q := r.1 % 16
    let s := s.send (.hostWrite fn (s.reg64 (sqReg fn q 2) / 8 * 8 + 4) (natLe 4 (s.fld (sqReg fn q 5) 15 0)))
    s.setRing fn 0 q { r.2 with dirty := false }) s

/-- `HOST_POLL` (R382): consumer indices, index pairs, new records, round robin from the ring after the one served first in the last poll.
An index beyond its ring is a malformed record (R380). -/
def execHostPoll (reads : List PollRead) (s : State) : Res :=
  let key (r : PollRead) : Nat := r.fn * 16 + r.q
  let sqs := reads.filter (fun r => r.kind == .sq)
  let order := sqs.filter (fun r => decide (s.pollFrom < key r)) ++ sqs.filter (fun r => decide (key r ≤ s.pollFrom)) ++
    reads.filter (fun r => r.kind != .sq)
  let bad (r : PollRead) : Bool :=
    s.polled r && r.ok && (decide (s.fld (ringCtl r.fn r.kind r.q) 15 0 ≤ r.hostIdx) ||
      (!(s.ring r.fn (ringCode r.kind) r.q).ready && decide (s.fld (ringCtl r.fn r.kind r.q) 15 0 ≤ r.devIdx)))
  if reads.any bad then .fault (.unpredictable .record)
  else
    let s := order.foldl State.pollOne s.writeConsumers
    match order.find? (fun r => r.kind == .sq && r.recs != []) with
    | some r => .next { s with pollFrom := key r }
    | none => .next s

/-! ## Sync counters (R366) -/

/-- `SYNC_COUNTER_ADD` (R366): a counter message arrives; while the serving scheduler is down it waits (R368). -/
def execSyncCounterAdd (ctr add : Nat) (s : State) : Res :=
  .next (s.vc3Arrives (fun _ m => m == .sync ctr add))

/-- `SYNC_COUNTER_WRITE` (R366 item 3, R374): the PF sets any counter, a VF one of its range. -/
def execSyncCounterWrite (rq : Requester) (ctr : Nat) (v : Word) (s : State) : Res :=
  let put : State := if s.blocksOpen then { s with sync := fset 0 s.sync (ctr % 65536) v.toNat } else s
  match rq with
  | .pf => .next put
  | .vf n =>
    let base := s.fld (rHost 0 (0x401 + 4 * (n - 1))) 15 0
    let count := s.fld (rHost 0 (0x402 + 4 * (n - 1))) 16 0
    if 1 ≤ n ∧ n ≤ 8 ∧ base ≤ ctr ∧ ctr < base + count then .next put else .next s
  | _ => .next s

end Sys2Proof.Machine
end

