-- ==== Sys2Proof/Machine/RegMap.lean ====
section
/-!
DEFINITION. The register map (13_host_attachment.md R373, R374, Tables 13-3, 13-4) and the access codes of every register that software may
write (00_scope.md R8, Table 0-2; the register tables of every chapter).
-/
namespace Sys2Proof.Machine

/-! ## Requesters -/

/-- A requester's number. -/
def rqKey : Requester → Nat
  | .pf => 0
  | .vf n => n
  | .bmc => 9
  | .sec => 10
  | .pwc => 11
  | .sch => 12
  | .ic i => 13 + i

/-- A requester's own copy of a register. -/
def ownKey (rq : Requester) (r : Nat) : Nat := rqKey rq * 2 ^ 40 + r

/-- The partition that a VF owns (Table 13-21). -/
def State.vfPart (s : State) (n : Nat) : Option Nat :=
  let v := s.regN (rHost 0 (0x400 + 4 * (n - 1)))
  if 1 ≤ n ∧ n ≤ 8 ∧ bits v 3 3 = 1 then some (bits v 2 0) else none

/-- A selection register (`CIM_SEL`, `HOST_REQ_SEL`) as a requester holds it. -/
def State.selN (s : State) (rq : Requester) (r : Nat) : Nat := (fget 0 s.sel (ownKey rq r)).toNat

/-! ## Addresses -/

/-- Is a word of an isle's window one that shows the core site selected by `CIM_SEL.SITE`? -/
def siteWord (w : Nat) : Bool :=
  (decide (0x804 ≤ w) && decide (w ≤ 0x80A)) || (decide (0x820 ≤ w) && decide (w ≤ 0x8A0)) || w == 0x8B4 ||
    (decide (0x8C0 ≤ w) && decide (w ≤ 0x8C4)) || w == 0x921 || w == 0x940 || w == 0x941

/-- The partition that a register of the SCH block belongs to; none for the device-wide ones and for offsets without a register. -/
def schPart (w : Nat) : Option Nat :=
  if 0x100 ≤ w ∧ w < 0x140 then some ((w - 0x100) / 8)
  else if 0x140 ≤ w ∧ w < 0x148 then some (w - 0x140)
  else if 0x150 ≤ w ∧ w < 0x158 then some (w - 0x150)
  else if 0x160 ≤ w ∧ w < 0x170 then some ((w - 0x160) / 2)
  else if 0x170 ≤ w ∧ w < 0x178 then some (w - 0x170)
  else if 0x180 ≤ w ∧ w < 0x190 then some ((w - 0x180) / 2)
  else if 0xF00 ≤ w ∧ w < 0xF08 then some (w - 0xF00)
  else if 0xF08 ≤ w ∧ w < 0xF18 then some ((w - 0xF08) / 2)
  else if 0xF20 ≤ w ∧ w < 0xF28 then some (w - 0xF20)
  else if 0xF28 ≤ w ∧ w < 0xF38 then some ((w - 0xF28) / 2)
  else if 0xF40 ≤ w ∧ w < 0xF80 then some ((w - 0xF40) / 8)
  else if 0x1000 ≤ w ∧ w < 0x1040 then some ((w - 0x1000) / 8)
  else if 0x2000 ≤ w ∧ w < 0x2400 then some ((w - 0x2000) / 128)
  else none

/-- Where a BAR0 byte address leads: a register, a word of the request table, a sync counter, or nowhere. -/
inductive Place0 where
  | reg (r : Nat)
  | req (entry word : Nat)
  | sync (n : Nat)
  | nowhere
deriving DecidableEq, Repr

/-- The PF's BAR0 (Table 13-3); the other requesters but the VFs use the same addresses. -/
def State.place0 (s : State) (rq : Requester) (addr : Nat) : Place0 :=
  let r := addr / 4
  if 0x20000 ≤ r ∧ r < 0x60000 then .req ((r - 0x20000) / 32) ((r - 0x20000) % 32)
  else if 0x60000 ≤ r ∧ r < 0x70000 then .sync (r - 0x60000)
  else if 0x100000 ≤ r ∧ r < 0x240000 then
    let i := (r - 0x100000) / 0x4000
    let w := (r - 0x100000) % 0x4000
    if siteWord w then .reg (rSite (i * 169 + s.selN rq (rIsle i 0x800) % 256) w) else .reg r
  else if 0x240000 ≤ r ∧ (r < 0x400000 ∨ 0x404000 ≤ r) then .nowhere
  else .reg r

/-- A VF's BAR0 view (Table 13-4, R374). -/
def State.placeVf (s : State) (n addr : Nat) : Place0 :=
  let w := addr % 0x10000 / 4
  if addr < 0x10000 then (if w < 2 then .reg (rSys w) else .nowhere)
  else if addr < 0x20000 then
    let ring := (decide (0x100 ≤ w) && decide (w < 0x110)) || (decide (0x200 ≤ w) && decide (w < 0x210))
    let table := (decide (0x2000 ≤ w) && decide (w < 0x2100)) || (decide (0x1C00 ≤ w) && decide (w < 0x1C02))
    if w = 2 ∨ w = 3 ∨ w = 4 then .reg (rHost 0 w)
    else if w < 8 || ring || table then .reg (rHost n w)
    else .nowhere
  else if addr < 0x30000 then .reg (rCfg w)
  else if 0x40000 ≤ addr ∧ addr < 0x80000 then
    let w := (addr - 0x40000) / 4
    if w < 2 then .reg (rSch w)
    else if schPart w ≠ none ∧ schPart w = s.vfPart n then .reg (rSch w)
    else .nowhere
  else if 0x80000 ≤ addr ∧ addr < 0x80080 then
    let e := s.selN (.vf n) (rHost n 7) % 8192
    if (s.req e).func = n then .req e w else .nowhere
  else if 0xC0000 ≤ addr ∧ addr < 0x100000 then
    let k := (addr - 0xC0000) / 4
    if k < s.fld (rHost 0 (0x402 + 4 * (n - 1))) 16 0 then .sync ((s.fld (rHost 0 (0x401 + 4 * (n - 1))) 15 0 + k) % 65536) else .nowhere
  else .nowhere

/-- Where a requester's access leads. -/
def State.target (s : State) (rq : Requester) (addr : Nat) : Place0 :=
  match rq with
  | .vf n => if 1 ≤ n ∧ n ≤ 8 then s.placeVf n addr else .nowhere
  | _ => s.place0 rq addr

/-! ## What a requester reaches (R371, R374, R471) -/

/-- Does a requester's access arrive at all: the device has power, and for a host function the link is up (R371)? -/
def State.hears (s : State) (rq : Requester) : Bool :=
  match rq with
  | .pf => s.linkUp && s.devState != 0
  | .vf _ => s.linkUp && s.devState != 0
  | _ => s.devState != 0

/-- Does configuration space answer: in every state but Off, from link-up on (R371)? -/
def State.cfgAnswers (s : State) : Bool := s.linkUp && s.devState != 0

/-- What Table 13-1 fixes of a function's configuration space. -/
inductive CfgField where
  | device
  | classCode
  | maxPayload
  | maxRead
  | tags
  | msixVectors
  | totalVfs
  | noSoftReset
  | powerState
deriving DecidableEq, Repr

/-- A field of the configuration space of a function (0 the PF, n VF n) as the host reads it (R370, R371); none where nothing answers. The power
state reads 0 in D0 and 3 in D3hot. -/
def State.cfgRead (s : State) (fn : Nat) (f : CfgField) : Option Nat :=
  if s.cfgAnswers = false ∨ 8 < fn then none
  else some (match f with
    | .device => if fn = 0 then 0x0A10 else 0x0A11
    | .classCode => 0x120000
    | .maxPayload => 512
    | .maxRead => 4096
    | .tags => 1024
    | .msixVectors => if fn = 0 then 2048 else 64
    | .totalVfs => 8
    | .noSoftReset => 1
    | .powerState => if s.d3.contains fn then 3 else 0)

/-- The blocks that R371 and R471 name. -/
def inSys (r : Nat) : Bool := decide (r < 0x4000)
def inThm (r : Nat) : Bool := decide (0x74000 ≤ r) && decide (r < 0x78000)
def inSec (r : Nat) : Bool := decide (0x78000 ≤ r) && decide (r < 0x7C000)
def inTel (r : Nat) : Bool := decide (0x7C000 ≤ r) && decide (r < 0x80000)

/-- Does a place answer reads: before Mapped only SYS, SEC and TEL, in Shutdown only SYS, THM and TEL? -/
def State.shows (s : State) (t : Place0) : Bool :=
  let r := match t with
    | .reg r => r
    | _ => 0x20000
  if s.devState = 10 then inSys r || inThm r || inTel r
  else s.isMapped || inSys r || inSec r || inTel r

/-- A VF's view reads as ones until the device is Ready (R371 item 2). -/
def State.vfDark (s : State) (rq : Requester) : Bool :=
  match rq with
  | .vf _ => decide (s.devState < 7) || s.devState == 9
  | _ => false

/-- Is a register written through the PF only (R376, R414, R460, R478, R497, R536, R553)? -/
def pfOnly (r : Nat) : Bool :=
  (decide (0x4400 ≤ r) && decide (r < 0x4420)) || (decide (0x70000 ≤ r) && decide (r < 0x100000)) || r == rSys 0x40 || r == rSys 2 ||
    (decide (0x400000 ≤ r) && decide (r < 0x404000))

/-- Does a register take a requester's write: it arrives, the block is open, and the requester may write it? In Held and Failed
only SYS, SEC and TEL do, for resets, firmware updates and log read-out (R12), and the version while Held (R391); in Shutdown only
`SYS_RESET` does. What a VF's HOST page shows of the PF's (`HOST_IF_RANGE`, `HOST_POLL`) a VF only reads (R374). -/
def State.takes (s : State) (rq : Requester) (r : Nat) : Bool :=
  s.hears rq && !s.vfDark rq && (if s.devState = 10 then r == rSys 2 else s.blocksOpen || inSys r || inSec r || inTel r || (s.devState == 6 && r == rHost 0 0)) &&
    (!(pfOnly r || r == rHost 0 4) || rq == .pf)

/-! ## Access codes -/

/-- The writable bits of a register by access code: RW and RWS, W1C, RWT, and WO bits. A register without any is read-only. -/
structure RegAcc where
  rw : Nat := 0
  w1c : Nat := 0
  rwt : Nat := 0
  wo : Nat := 0
deriving DecidableEq, Repr

def isleAcc (w : Nat) : RegAcc :=
  if w = 0x800 then { rw := 0x81FFFFFF }
  else if w = 0x801 then { rwt := 0x3F3F3F }
  else if w = 0x802 then { rw := 3 }
  else if w = 0x810 then { w1c := 0xFF }
  else if w = 0x8B5 then { w1c := 0x7F }
  else if w = 0x8C5 then { w1c := 0xF }
  else if w = 0x8E0 then { w1c := 0x3F }
  else if w = 0x922 then { w1c := 0xFF }
  else {}

def sysAcc (w : Nat) : RegAcc :=
  if w = 2 then { wo := 0xFF03 }
  else if w = 4 then { w1c := 2 }
  else if w = 0x40 then { wo := 0x7FFFC }
  else if w = 0x54 then { w1c := 0x1F }
  else {}

/-- The HOST page of a function. -/
def hostAcc (fn w : Nat) : RegAcc :=
  let q := w % 8
  if w = 0 then { rw := 0xFFFFFFFF }
  else if w = 4 then (if fn = 0 then { rw := 0x7F } else {})
  else if w = 5 then { w1c := 2 ^ 31 }
  else if w = 6 then { rw := 0xFF }
  else if w = 7 then { rw := 0x1FFF }
  else if (0x100 ≤ w ∧ w < 0x180) ∨ (0x200 ≤ w ∧ w < 0x280) then
    (if q = 0 then { rw := 0xFFFFF000 }
     else if q = 1 ∨ q = 3 then { rw := 0xFFFFFFFF }
     else if q = 2 then { rw := 0xFFFFFFF8 }
     else if q = 4 then { rw := if w < 0x200 then 0x1FFFF else 0xFFFFFFF }
     else if q = 5 ∧ 0x200 ≤ w then { rw := 0xFFFFFF }
     else {})
  else if 0x400 ≤ w ∧ w < 0x420 ∧ fn = 0 then
    (if w % 4 = 0 then { rwt := 0xF } else if w % 4 = 1 then { rwt := 0xFFFF } else if w % 4 = 2 then { rwt := 0x1FFFF } else {})
  else if 0x2000 ≤ w ∧ w < 0x4000 then { rw := if w % 4 = 3 then 1 else if w % 4 = 0 then 0xFFFFFFFC else 0xFFFFFFFF }
  else {}

def schAcc (w : Nat) : RegAcc :=
  if 0x100 ≤ w ∧ w < 0x140 then { rwt := 0x7FFFF }
  else if 0x140 ≤ w ∧ w < 0x148 then { rwt := 0x1F }
  else if 0x1000 ≤ w ∧ w < 0x1040 then
    (if w % 8 = 0 then { rw := 0xFFFFF000 } else if w % 8 = 1 then { rw := 0xFFFFFFFF } else if w % 8 = 2 then { rw := 0xF }
     else if w % 8 = 3 then { wo := 7 } else {})
  else if 0x2000 ≤ w ∧ w < 0x2400 then { rwt := 0x03FF03FF }
  else {}

def cwyAcc (w : Nat) : RegAcc :=
  if w = 1 then { rw := 0xFFF }
  else if 0x30 ≤ w ∧ w < 0x40 then { rwt := if w % 2 = 0 then 0x1FFFFFF else 0xFFFFFFFF }
  else if 0x40 ≤ w ∧ w < 0x50 then { rwt := if w % 2 = 0 then 0xFFFFFFFF else 0xF }
  else if 0x50 ≤ w ∧ w < 0x60 then { rwt := 0xFFFFFFFF }
  else if 0x60 ≤ w ∧ w < 0x68 then { rwt := 0xFFFF }
  else if w = 0x70 then { rw := 0x1FFFFFF, wo := 0x2000000 }
  else if w = 0x72 then { rw := 0xFFFFF000 }
  else if w = 0x73 ∨ w = 0x74 then { rw := 0xFFFFFFFF }
  else if 0x100 ≤ w ∧ w < 0x300 then
    (let k := w % 8
     if k = 0 ∨ k = 2 ∨ k = 5 then { rw := 0xFFFFFFFF } else if k = 1 ∨ k = 3 then { rw := 0x0FFFFFFF }
     else if k = 4 then { rw := 0x1FFFFF } else {})
  else {}

def telAcc (w : Nat) : RegAcc :=
  if w = 0 then { rw := 0xFFFFF000 }
  else if w = 1 ∨ w = 3 then { rw := 0xFFFFFFFF }
  else if w = 2 then { rw := 0xFFFFFFF8 }
  else if w = 4 then { rw := 0x7FFFFFFF }
  else if w = 6 then { rw := 7 }
  else if w = 8 then { w1c := 0x3F }
  else if 0x20 ≤ w ∧ w < 0x28 then { rw := 1 }
  else if 0x28 ≤ w ∧ w < 0x30 then { rw := 3 }
  else {}

def secAcc (w : Nat) : RegAcc :=
  if 0x10 ≤ w ∧ w < 0x20 then { rw := 0xFFFFFFFF } else if w = 0x20 then { wo := 1 } else if w = 0x30 then { w1c := 0x7F } else {}

/-- The access codes of a register. -/
def regAcc (r : Nat) : RegAcc :=
  if r < 0x4000 then sysAcc r
  else if r < 0x8000 then hostAcc 0 (r - 0x4000)
  else if r < 0x10000 then (if r ≤ rCfg 1 then { wo := 0xFFFFFFFF } else {})
  else if r < 0x20000 then schAcc (r - 0x10000)
  else if 0x70000 ≤ r ∧ r < 0x74000 then
    (let w := r - 0x70000
     if w = 0 then { rw := 0x7FFF } else if w = 4 then { w1c := 0xF } else if 0x100 ≤ w ∧ w < 0x150 then { rwt := 0x3FF }
     else if 0x300 ≤ w ∧ w < 0x350 then { rw := 1 } else {})
  else if 0x74000 ≤ r ∧ r < 0x78000 then
    (if r = rThm 8 then { rwt := 0xFFF01 } else if r = rThm 0x10 then { w1c := 0x7F } else {})
  else if 0x78000 ≤ r ∧ r < 0x7C000 then secAcc (r - 0x78000)
  else if 0x7C000 ≤ r ∧ r < 0x80000 then telAcc (r - 0x7C000)
  else if 0x80000 ≤ r ∧ r < 0x100000 then cwyAcc (r - 0x80000)
  else if 0x100000 ≤ r ∧ r < 0x240000 then isleAcc ((r - 0x100000) % 0x4000)
  else if 0x400000 ≤ r ∧ r < 0x404000 then
    (let w := r - 0x400000
     if w < 8 then { w1c := 4, wo := 2 } else if w = 0x10 then { rw := 0xFFFFFFFC } else if w = 0x11 then { rw := 0xFFFF } else {})
  else if 2 ^ 27 ≤ r ∧ r < 2 ^ 28 then hostAcc (r / 2 ^ 16 % 2 ^ 8) (r % 2 ^ 16)
  else if 2 ^ 32 ≤ r ∧ (r - 2 ^ 32) % 2 ^ 13 = 0x893 then { w1c := 1, wo := 0x200 }
  else {}

/-- Is a register the low half of a 64-bit one (R6)? -/
def isLow (r : Nat) : Bool :=
  if r < 0x4000 then false
  else if r < 0x8000 ∨ (2 ^ 27 ≤ r ∧ r < 2 ^ 28) then
    (let w := if r < 0x8000 then r - 0x4000 else r % 2 ^ 16
     w == 2 || (decide (0x100 ≤ w) && decide (w < 0x280) && (w % 8 == 0 || w % 8 == 2)) || (decide (0x400 ≤ w) && decide (w < 0x420) && w % 4 == 1))
  else if 0x10000 ≤ r ∧ r < 0x20000 then
    (let w := r - 0x10000
     w == 0 || (decide (0x180 ≤ w) && decide (w < 0x190) && w % 2 == 0) || (decide (0xF08 ≤ w) && decide (w < 0xF18) && w % 2 == 0) ||
       (decide (0xF28 ≤ w) && decide (w < 0xF38) && w % 2 == 0) || (decide (0x1000 ≤ w) && decide (w < 0x1040) && w % 8 == 0))
  else if 0x74000 ≤ r ∧ r < 0x78000 then r == rThm 1
  else if 0x78000 ≤ r ∧ r < 0x7C000 then r == rSec 2 || r == rSec 0x24 || r == rSec 0x26
  else if 0x7C000 ≤ r ∧ r < 0x80000 then r == rTel 0 || r == rTel 2
  else if 0x80000 ≤ r ∧ r < 0x100000 then
    (let w := r - 0x80000
     w == 0x20 || (decide (0x30 ≤ w) && decide (w < 0x60) && w % 2 == 0) || w == 0x72 ||
       (decide (0x100 ≤ w) && decide (w < 0x300) && (w % 8 == 0 || w % 8 == 2)))
  else if r = rDbg 0x10 then true
  else if 2 ^ 32 ≤ r then
    (let w := (r - 2 ^ 32) % 2 ^ 13
     [0x806, 0x888, 0x88A, 0x895].contains w)
  else false

/-- The partition whose beat boundary a committed value of a register waits for (R511 item 1). -/
def commitPart (r : Nat) : Option Nat :=
  if 0x10000 ≤ r ∧ r < 0x20000 then schPart (r - 0x10000)
  else if 0x80000 ≤ r ∧ r < 0x100000 then
    (let w := r - 0x80000
     if 0x30 ≤ w ∧ w < 0x40 then some ((w - 0x30) / 2)
     else if 0x40 ≤ w ∧ w < 0x50 then some ((w - 0x40) / 2)
     else if 0x50 ≤ w ∧ w < 0x60 then some ((w - 0x50) / 2)
     else if 0x60 ≤ w ∧ w < 0x68 then some (w - 0x60)
     else none)
  else none

end Sys2Proof.Machine
end

