-- ==== Sys2Proof/Machine/Cfg.lean ====
section
/-!
DEFINITION. Transactions (19_firmware_and_transactions.md R508 to R514).
-/
namespace Sys2Proof.Machine

/-- The slot of a requester; a VF reaches the PF's (R375, R508). -/
def slotOf : Requester → Option Nat
  | .pf => some 0
  | .vf _ => some 0
  | .bmc => some 1
  | .sec => some 2
  | .sch => some 3
  | _ => none

def State.txSlot (s : State) (k : Nat) : Tx := fget {} s.tx k
def State.setTx (s : State) (k : Nat) (t : Tx) : State := { s with tx := fset {} s.tx k t }

/-- The slot in which a requester's own transaction is open. -/
def State.openSlot (s : State) (rq : Requester) : Option Nat :=
  match slotOf rq with
  | some k => if (s.txSlot k).owner = some rq then some k else none
  | none => none

/-- An open transaction rolls back with a status: its shadow is discarded (R513). -/
def State.rollTx (s : State) (k status : Nat) : State :=
  let t := s.txSlot k
  if t.owner.isSome then s.setTx k { t with owner := none, shadow := [], overflow := false, status := status } else s

/-- A warning record about a transaction slot (R514). -/
def State.txWarn (s : State) (k status : Nat) : State := s.log { cls := 2, source := 80, reg := 2, a := k, b := status }

/-- `CFG_TX_BEGIN` (R509). -/
def execCfgTxBegin (rq : Requester) (id : Word) (s : State) : Res :=
  match slotOf rq with
  | none => .next s
  | some k =>
    let t := s.txSlot k
    if s.blocksOpen = false then .next s
    else if t.owner.isSome then .next (s.setTx k { t with status := 6 })
    else .next (s.setTx k { t with owner := some rq, at_ := s.now, shadow := [], overflow := false, id := id })

/-- A word replaced in a shadow, or added behind the others. -/
def shadowPut (r : Nat) (v : Word) : List (Nat × Word) → List (Nat × Word)
  | [] => [(r, v)]
  | x :: xs => if x.1 = r then (r, v) :: xs else x :: shadowPut r v xs

/-- A write to an RWT register (R8, R510): into the writer's shadow, of at most 512 words, or ignored and counted. -/
def State.rwtPut (s : State) (rq : Requester) (r : Nat) (v : Word) : State :=
  match s.openSlot rq with
  | none => s.sat32 (rCfg 5) 1
  | some k =>
    let t := s.txSlot k
    if t.shadow.any (fun x => x.1 == r) || decide (t.shadow.length < 512) then s.setTx k { t with shadow := shadowPut r v t.shadow }
    else s.setTx k { t with overflow := true }

/-- Does a value lie in the range that the register's table reserves (R76: margin thresholds of 33 to 63)? -/
def reservedValue (r : Nat) (v : Word) : Bool :=
  decide (0x100000 ≤ r) && decide (r < 0x240000) && (r - 0x100000) % 0x4000 == 0x801 &&
    (decide (32 < bits v.toNat 5 0) || decide (32 < bits v.toNat 13 8) || decide (32 < bits v.toNat 21 16))

/-- `RWT_WRITE` (R510). -/
def execRwtWrite (rq : Requester) (addr : Nat) (v : Word) (s : State) : Res :=
  match s.target rq addr with
  | .reg r =>
    if (regAcc r).rwt = 0 ∨ s.takes rq r = false then .next s
    else if reservedValue r v then .fault (.unpredictable .encoding)
    else .next (s.rwtPut rq r v)
  | _ => .next s

/-- Would a value of `HOST_VF_PART` for VF `n` move a partition that holds an entry that is not Free (R376)? -/
def State.movesOwner (s : State) (n : Nat) (v : Word) : Bool :=
  let old := s.vfPart n
  let new := if bits v.toNat 3 3 = 1 then some (bits v.toNat 2 0) else none
  old != new && (old.any (fun p => s.partReqs p != []) || new.any (fun p => s.partReqs p != []))

/-- One committed value passes to the apply stage (R511): the state and whether it was refused. -/
def State.applyOne (s : State) (x : Nat × Word) : State × Bool :=
  let v := BitVec.ofNat 32 ((regAcc x.1).rwt) &&& x.2
  match commitPart x.1 with
  | some p =>
    let q := s.part p
    if q.loaded && !(q.held && q.wop.isSome) then (s.updPart p (fun q => { q with commits := q.commits ++ [(x.1, v)] }), false)
    else (s.setReg x.1 v, false)
  | none =>
    if 0x4400 ≤ x.1 ∧ x.1 < 0x4420 ∧ x.1 % 4 = 0 ∧ s.movesOwner ((x.1 - 0x4400) / 4 + 1) v then (s.orReg (rHost 0 5) (2 ^ 31), true)
    else (s.setReg x.1 v, false)

/-- `COMMIT` (R511, R512, R514). -/
def execCommit (rq : Requester) (s : State) : Res :=
  match s.openSlot rq with
  | none => .next s
  | some k =>
    let t := s.txSlot k
    if s.blocksOpen = false then .next s
    else if t.overflow then .next ((s.rollTx k 5).txWarn k 5)
    else
      let (s, refused) := t.shadow.foldl (fun (st : State × Bool) x => let r := st.1.applyOne x; (r.1, st.2 || r.2)) (s, false)
      .next (s.rollTx k (if refused then 2 else 1))

/-- `TRANSACTION_ROLLBACK` (R513). -/
def execTransactionRollback (rq : Requester) (s : State) : Res :=
  match s.openSlot rq with
  | none => .next s
  | some k => .next (if s.blocksOpen then s.rollTx k 3 else s)

/-- `TRANSACTION_TIMEOUT` (R513 item 1). -/
def execTransactionTimeout (slot : Nat) (s : State) : Res :=
  let t := s.txSlot slot
  if t.owner.isSome ∧ t.at_ + 1000000000 ≤ s.now then .next ((s.rollTx slot 4).txWarn slot 4) else .next s

end Sys2Proof.Machine
end

