-- ==== Sys2Proof/WellFormed.lean ====
section
/-!
DEFINITION. Well-formed commands. A score instruction is well-formed when every field fits its encoding (08_instruction_reference.md, Tables
8-4 to 8-9), holds no value that R221 makes the loader refuse, and carries a tag action only where its encoding lists one. The other
commands have no encoding; they are all well-formed.
-/
namespace Sys2Proof

/-- No tag action. -/
def Ta.none : Ta := { src := .none, fill := false }

/-- Is every condition of a list true? -/
def allOf (l : List Bool) : Bool := l.all id

/-- The check of R221 on one instruction. -/
def Instr.wf : Instr → Bool
  | .ctlPld _ ta pt pb wo _ => allOf [!ta.fill, decide (pt < 32), decide (pb < 32), decide (wo < 4096), decide (wo % 2 = 0)]
  | .ctlPadd _ pt imm => allOf [decide (pt < 32), decide (-(2 ^ 17) ≤ imm), decide (imm < 2 ^ 17)]
  | .ctlLoop _ lc count len => allOf [decide (lc < 4), decide (count < 2048), decide (len < 1024)]
  | .ctlJump _ target => decide (target < 32768)
  | .ctlFlead _ u f => allOf [decide (u < 2), decide (f < 65536)]
  | .ctlLane _ unit lane tensor _ => allOf [decide (unit < 5), decide (lane < 32), decide (tensor < 16384)]
  | .cimMvm _ ta eng first g w0 n t h fmt a _ =>
    allOf [!ta.fill, decide (eng < 6), decide (first < 8), decide (first + g ≤ 8), decide (w0 < 16), decide (w0 + n ≤ 16), decide (n ≤ 16),
      decide (t < 32), decide (fmt < 3), !(decide (fmt = 0) && decide (30 < t)), !(h && fmt != 2), decide (a < 256),
      decide (a + 17 * g + n ≤ 272)]
  | .cimPre _ ta eng t mode ps pe _ =>
    allOf [!ta.fill, decide (eng < 6), decide (t < 32), decide (mode < 5), decide (ps < 32), decide (pe < 32)]
  | .cimOut _ ta eng t dest _ a pd _ _ =>
    allOf [ta.src == .none, decide (eng < 6), decide (t < 32), decide (dest < 2), decide (a < 256), decide (pd < 32)]
  | .cimCal _ emask amask _ => allOf [decide (emask < 64), decide (amask < 256)]
  | .attPass _ _ lane asg h0 nh pp po ql _ _ =>
    allOf [decide (lane < 32), decide (asg < 8), decide (h0 < 16), decide (h0 + nh ≤ 16), decide (pp < 32), decide (po < 32),
      decide (ql < 1024)]
  | .attMerge _ _ pa pb po q _ _ lane =>
    allOf [decide (pa < 32), decide (pb < 32), decide (po < 32), decide (q ≤ 64), decide (lane < 32)]
  | .attGemv _ _ pw fmt g w0 n a pd _ _ =>
    allOf [decide (pw < 32), decide (fmt < 3), decide (g ≤ 8), decide (w0 < 16), decide (n ≤ 16), decide (a < 1024), decide (pd < 32)]
  | .vecLd _ _ ps a n _ _ => allOf [decide (ps < 32), decide (a < 256), decide (n < 256)]
  | .vecSt _ _ pd a n _ => allOf [decide (pd < 32), decide (a < 256), decide (n < 256)]
  | .vecAlu _ _ fn fmt a b c d n _ =>
    allOf [decide (fn < 9), decide (fmt < 2), decide (a < 256), decide (b < 256), decide (c < 256), decide (d < 256), decide (n < 256)]
  | .vecTr _ _ fn a b d n => allOf [decide (fn < 6), decide (a < 256), decide (b < 256), decide (d < 256), decide (n < 256)]
  | .vecXl _ _ fn fmt a n d dw =>
    allOf [decide (fn < 2), decide (fmt < 2), decide (a < 256), decide (n < 256), decide (d < 256), decide (dw < 16)]
  | .vecQnt _ _ fmt sf sm sc ef pe cs a pd nb j0 _ =>
    allOf [[2, 3, 4, 6, 7].contains fmt, decide (sf < 2), decide (sm < 2), decide (sc < 256), decide (ef < 3), decide (pe < 32),
      decide (cs < 64), decide (a < 256), decide (pd < 32), decide (nb ≤ 8), decide (j0 < 64), decide (j0 + nb ≤ 64),
      !(decide (sm = 1) && (sc == 0 || sc == 255)), !(decide (6 ≤ fmt) && (sm == 1 || ef != 0))]
  | .vecRope _ _ a d f nh lane poff =>
    allOf [decide (a < 256), decide (d < 256), decide (f ≤ 252), decide (nh ≤ 32), decide (lane < 32), decide (poff < 16),
      decide (a + 8 * nh ≤ 256), decide (d + 8 * nh ≤ 256)]
  | .scan _ _ lane a b d n => allOf [decide (lane < 32), decide (a < 256), decide (b < 256), decide (d < 256), decide (n < 256)]
  | .samplerMerge _ _ a b d => allOf [decide (a < 256), decide (b < 256), decide (d < 256)]
  | .draw _ _ lane a => allOf [decide (lane < 32), decide (a < 256)]
  | .verify _ _ lane => decide (lane < 32)
  | .xfrCp _ _ ps pd n rt _ => allOf [decide (ps < 32), decide (pd < 32), decide (n < 4096), decide (rt < 2)]
  | .xfrGather _ ta pi pt n pd rt _ =>
    allOf [ta.src == .none, decide (pi < 32), decide (pt < 32), decide (n < 4096), decide (pd < 32), decide (rt < 2)]
  | .xfrMapload _ ta asg pc l => allOf [ta.src == .none, decide (asg < 8), decide (pc < 32), decide (l ≤ 32)]
  | .xfrScatter _ lane asg ⟨py, _⟩ pc nb =>
    allOf [decide (lane < 32), decide (asg < 8), decide (py < 32), decide (pc < 32), decide (nb ≤ 16)]
  | .xfrRelease _ amask => decide (amask < 256)
  | .xfrSignal _ ctr add => allOf [decide (ctr < 65536), decide (add < 65536)]
  | .xfrEmit _ lane => decide (lane < 32)
  | .xfrDflush _ lane => decide (lane < 32)
  | _ => true

end Sys2Proof
end

