-- ==== Sys2Proof/Decode.lean ====
section
/-!
DEFINITION. The commands of the block have no bit encoding in the table, so `decodeTableWord` reads none. The score instructions have one
inside the bundles of score memory (08_instruction_reference.md R219 to R222, Tables 8-1 and 8-4 to 8-9): the slot decoder that the core
sequencer and the loader's check use, and its encoder.
-/
namespace Sys2Proof

/-- The command that a word of the opcode table spells: the table gives no row any bits. -/
def decodeTableWord (_nbits _w : Nat) : Option Instr := none

/-! ## Slots and fields -/

/-- The five slots of a bundle (Table 8-1). -/
inductive Slot where
  | control | cim | attention | vector | transfer
deriving DecidableEq, Repr

/-- The bits of a slot in a bundle: low end and width (Table 8-1). -/
def Slot.at_ : Slot → Nat × Nat
  | .control => (16, 32)
  | .cim => (48, 48)
  | .attention => (96, 48)
  | .vector => (144, 64)
  | .transfer => (208, 48)

/-- The fields that an encoding lists above `OP`: low end and width of each, rising. `DST` is bit 6 and `SRC` bits [8:7] where the encoding
carries a tag action (Table 8-2). None for a reserved opcode. -/
def fieldsOf : Slot → Nat → Option (List (Nat × Nat))
  | .control, 1 => some [(7, 2), (9, 5), (14, 5), (19, 12)]
  | .control, 2 => some [(9, 5), (14, 18)]
  | .control, 3 => some [(9, 2), (11, 11), (22, 10)]
  | .control, 4 => some [(9, 15)]
  | .control, 5 => some [(9, 1), (10, 16)]
  | .control, 6 => some [(9, 3), (12, 5), (17, 14), (31, 1)]
  | .cim, 1 => some [(7, 2), (9, 3), (12, 3), (15, 4), (19, 4), (23, 5), (28, 5), (33, 1), (34, 2), (36, 8)]
  | .cim, 2 => some [(7, 2), (9, 3), (12, 5), (17, 3), (20, 5), (25, 5)]
  | .cim, 3 => some [(6, 1), (9, 3), (12, 5), (17, 1), (18, 1), (19, 8), (27, 5)]
  | .cim, 4 => some [(9, 6), (15, 8)]
  | .attention, 1 => some [(6, 1), (7, 2), (9, 5), (14, 3), (17, 4), (21, 5), (26, 5), (31, 5), (36, 10), (46, 1), (47, 1)]
  | .attention, 2 => some [(6, 1), (7, 2), (9, 5), (14, 5), (19, 5), (24, 7), (31, 1), (32, 1), (33, 5)]
  | .attention, 3 => some [(6, 1), (7, 2), (9, 5), (14, 2), (16, 4), (20, 4), (24, 5), (29, 10), (39, 5), (44, 1), (45, 1)]
  | .vector, 1 => some [(6, 1), (7, 2), (9, 5), (14, 8), (22, 8)]
  | .vector, 2 => some [(6, 1), (7, 2), (9, 5), (14, 8), (22, 8)]
  | .vector, 3 => some [(6, 1), (7, 2), (9, 4), (13, 1), (14, 8), (22, 8), (30, 8), (38, 8), (46, 8), (54, 1)]
  | .vector, 4 => some [(6, 1), (7, 2), (9, 4), (14, 8), (22, 8), (30, 8), (38, 8)]
  | .vector, 5 => some [(6, 1), (7, 2), (9, 1), (10, 1), (11, 8), (19, 8), (27, 8), (35, 4)]
  | .vector, 6 => some [(6, 1), (7, 2), (9, 4), (13, 1), (14, 1), (15, 8), (23, 2), (25, 5), (30, 6), (36, 8), (44, 5), (49, 4), (53, 6), (59, 1)]
  | .vector, 7 => some [(6, 1), (7, 2), (14, 8), (22, 8), (30, 8), (38, 7), (45, 5), (50, 4)]
  | .vector, 8 => some [(6, 1), (7, 2), (9, 3), (12, 5), (17, 8), (25, 8), (33, 8), (41, 8)]
  | .transfer, 1 => some [(6, 1), (7, 2), (9, 5), (14, 5), (19, 12), (31, 1)]
  | .transfer, 2 => some [(6, 1), (9, 5), (14, 5), (19, 12), (31, 5), (36, 1)]
  | .transfer, 3 => some [(6, 1), (9, 3), (12, 5), (17, 6)]
  | .transfer, 4 => some [(9, 5), (14, 3), (17, 5), (22, 5), (27, 5)]
  | .transfer, 5 => some [(9, 8)]
  | .transfer, 6 => some [(9, 16), (25, 16)]
  | .transfer, 7 => some [(9, 5)]
  | .transfer, 8 => some [(9, 5)]
  | _, _ => none

/-- A field of a slot value. -/
def field (w : Nat) (f : Nat × Nat) : Nat := w / 2 ^ f.1 % 2 ^ f.2

/-- The slot value with an opcode and field values. -/
def packFields (op : Nat) : List (Nat × Nat) → List Nat → Nat
  | f :: fs, v :: vs => packFields op fs vs + v * 2 ^ f.1
  | _, _ => op

/-! ## Decoding -/

/-- A source action from its code; code 3 is reserved. -/
def srcOf (v : Nat) : Option SrcAct := if v = 0 then some .none else if v = 1 then some .read else if v = 2 then some .drain else none

/-- The code of a source action. -/
def srcCode : SrcAct → Nat
  | .none => 0
  | .read => 1
  | .drain => 2

/-- A signed field of `n` bits. -/
def signed (n v : Nat) : Int := if v < 2 ^ (n - 1) then v else (v : Int) - 2 ^ n

/-- Booleans from fields of one bit. -/
def flag (v : Nat) : Bool := v == 1

/-- The instruction of a core with an opcode and field values, without what its execution observes. -/
def buildInstr (c : CoreId) : Slot → Nat → List Nat → Option Instr
  | .control, 1, [s, pt, pb, wo] => (srcOf s).map (fun s => .ctlPld c ⟨s, false⟩ pt pb wo [])
  | .control, 2, [pt, imm] => some (.ctlPadd c pt (signed 18 imm))
  | .control, 3, [lc, count, len] => some (.ctlLoop c lc count len)
  | .control, 4, [target] => some (.ctlJump c target)
  | .control, 5, [u, f] => some (.ctlFlead c u f)
  | .control, 6, [unit, lane, tensor, dg] => some (.ctlLane c unit lane tensor (flag dg))
  | .cim, 1, [s, eng, first, g, w0, n, t, h, fmt, a] => (srcOf s).map (fun s => .cimMvm c ⟨s, false⟩ eng first g w0 n t (flag h) fmt a ⟨[], []⟩)
  | .cim, 2, [s, eng, t, mode, ps, pe] => (srcOf s).map (fun s => .cimPre c ⟨s, false⟩ eng t mode ps pe [])
  | .cim, 3, [d, eng, t, dest, clr, a, pd] => some (.cimOut c ⟨.none, flag d⟩ eng t dest (flag clr) a pd [] [])
  | .cim, 4, [emask, amask] => some (.cimCal c emask amask [])
  | .attention, 1, [d, s, lane, asg, h0, nh, pp, po, ql, tray, exp] =>
    (srcOf s).map (fun s => .attPass c ⟨⟨s, flag d⟩, []⟩ lane asg h0 nh pp po ql (flag tray) (flag exp))
  | .attention, 2, [d, s, pa, pb, po, q, norm, exp, lane] =>
    (srcOf s).map (fun s => .attMerge c ⟨⟨s, flag d⟩, []⟩ pa pb po q (flag norm) (flag exp) lane)
  | .attention, 3, [d, s, pw, fmt, g, w0, n, a, pd, init, h] =>
    (srcOf s).map (fun s => .attGemv c ⟨⟨s, flag d⟩, []⟩ pw fmt g w0 n a pd (flag init) (flag h))
  | .vector, 1, [d, s, ps, a, n] => (srcOf s).map (fun s => .vecLd c ⟨s, flag d⟩ ps a n [] [])
  | .vector, 2, [d, s, pd, a, n] => (srcOf s).map (fun s => .vecSt c ⟨s, flag d⟩ pd a n [])
  | .vector, 3, [d, s, fn, fmt, a, b, cc, dd, n, bb] => (srcOf s).map (fun s => .vecAlu c ⟨⟨s, flag d⟩, []⟩ fn fmt a b cc dd n (flag bb))
  | .vector, 4, [d, s, fn, a, b, dd, n] => (srcOf s).map (fun s => .vecTr c ⟨⟨s, flag d⟩, []⟩ fn a b dd n)
  | .vector, 5, [d, s, fn, fmt, a, n, dd, dw] => (srcOf s).map (fun s => .vecXl c ⟨⟨s, flag d⟩, []⟩ fn fmt a n dd dw)
  | .vector, 6, [d, s, fmt, sf, sm, sc, ef, pe, cs, a, pd, nb, j0, zh] =>
    (srcOf s).map (fun s => .vecQnt c ⟨⟨s, flag d⟩, []⟩ fmt sf sm sc ef pe cs a pd nb j0 (flag zh))
  | .vector, 7, [d, s, a, dd, f, nh, lane, poff] => (srcOf s).map (fun s => .vecRope c ⟨⟨s, flag d⟩, []⟩ a dd f nh lane poff)
  | .vector, 8, [d, s, 0, lane, a, b, dd, n] => (srcOf s).map (fun s => .scan c ⟨⟨s, flag d⟩, []⟩ lane a b dd n)
  | .vector, 8, [d, s, 1, _, a, b, dd, _] => (srcOf s).map (fun s => .samplerMerge c ⟨⟨s, flag d⟩, []⟩ a b dd)
  | .vector, 8, [d, s, 2, lane, a, _, _, _] => (srcOf s).map (fun s => .draw c ⟨⟨s, flag d⟩, []⟩ lane a)
  | .vector, 8, [d, s, 3, lane, _, _, _, _] => (srcOf s).map (fun s => .verify c ⟨⟨s, flag d⟩, []⟩ lane)
  | .transfer, 1, [d, s, ps, pd, n, rt] => (srcOf s).map (fun s => .xfrCp c ⟨s, flag d⟩ ps pd n rt [])
  | .transfer, 2, [d, pi, pt, n, pd, rt] => some (.xfrGather c ⟨.none, flag d⟩ pi pt n pd rt [])
  | .transfer, 3, [d, asg, pc, l] => some (.xfrMapload c ⟨.none, flag d⟩ asg pc l)
  | .transfer, 4, [lane, asg, py, pc, nb] => some (.xfrScatter c lane asg ⟨py, []⟩ pc nb)
  | .transfer, 5, [amask] => some (.xfrRelease c amask)
  | .transfer, 6, [ctr, add] => some (.xfrSignal c ctr add)
  | .transfer, 7, [lane] => some (.xfrEmit c lane)
  | .transfer, 8, [lane] => some (.xfrDflush c lane)
  | _, _, _ => none

/-- A slot's contents: `none` where the loader refuses it (R220, R221), `some none` for an empty slot. -/
def decodeSlot (c : CoreId) (sl : Slot) (w : Nat) : Option (Option Instr) :=
  let op := w % 64
  if w = 0 then some none
  else
    match fieldsOf sl op with
    | none => none
    | some fs =>
      let vs := fs.map (field w)
      if packFields op fs vs = w then
        match buildInstr c sl op vs with
        | some i => if i.wf then some (some i) else none
        | none => none
      else none

/-- The slots of a bundle, the control slot last: what it sets is usable from the next cycle on (R229, R235), so the other instructions of
the bundle see the pointers and lanes as they were. -/
def slots : List Slot := [.cim, .attention, .vector, .transfer, .control]

/-- A bundle: its delta and its instructions; none where a slot is refused. -/
def decodeBundle (c : CoreId) (w : Nat) : Option (Nat × List Instr) :=
  let ds := slots.map (fun sl => decodeSlot c sl (field w sl.at_))
  if ds.any (·.isNone) then none else some (w % 65536, ds.filterMap (fun d => d.getD none))

/-! ## Encoding -/

/-- The slot, opcode and field values of a score instruction; none for the other commands. -/
def instrFields : Instr → Option (Slot × Nat × List Nat)
  | .ctlPld _ ta pt pb wo _ => some (.control, 1, [srcCode ta.src, pt, pb, wo])
  | .ctlPadd _ pt imm => some (.control, 2, [pt, (imm % 2 ^ 18).toNat])
  | .ctlLoop _ lc count len => some (.control, 3, [lc, count, len])
  | .ctlJump _ target => some (.control, 4, [target])
  | .ctlFlead _ u f => some (.control, 5, [u, f])
  | .ctlLane _ unit lane tensor dg => some (.control, 6, [unit, lane, tensor, b2n dg])
  | .cimMvm _ ta eng first g w0 n t h fmt a _ => some (.cim, 1, [srcCode ta.src, eng, first, g, w0, n, t, b2n h, fmt, a])
  | .cimPre _ ta eng t mode ps pe _ => some (.cim, 2, [srcCode ta.src, eng, t, mode, ps, pe])
  | .cimOut _ ta eng t dest clr a pd _ _ => some (.cim, 3, [b2n ta.fill, eng, t, dest, b2n clr, a, pd])
  | .cimCal _ emask amask _ => some (.cim, 4, [emask, amask])
  | .attPass _ ⟨ta, _⟩ lane asg h0 nh pp po ql tray exp =>
    some (.attention, 1, [b2n ta.fill, srcCode ta.src, lane, asg, h0, nh, pp, po, ql, b2n tray, b2n exp])
  | .attMerge _ ⟨ta, _⟩ pa pb po q norm exp lane =>
    some (.attention, 2, [b2n ta.fill, srcCode ta.src, pa, pb, po, q, b2n norm, b2n exp, lane])
  | .attGemv _ ⟨ta, _⟩ pw fmt g w0 n a pd init h =>
    some (.attention, 3, [b2n ta.fill, srcCode ta.src, pw, fmt, g, w0, n, a, pd, b2n init, b2n h])
  | .vecLd _ ta ps a n _ _ => some (.vector, 1, [b2n ta.fill, srcCode ta.src, ps, a, n])
  | .vecSt _ ta pd a n _ => some (.vector, 2, [b2n ta.fill, srcCode ta.src, pd, a, n])
  | .vecAlu _ ⟨ta, _⟩ fn fmt a b c d n bb => some (.vector, 3, [b2n ta.fill, srcCode ta.src, fn, fmt, a, b, c, d, n, b2n bb])
  | .vecTr _ ⟨ta, _⟩ fn a b d n => some (.vector, 4, [b2n ta.fill, srcCode ta.src, fn, a, b, d, n])
  | .vecXl _ ⟨ta, _⟩ fn fmt a n d dw => some (.vector, 5, [b2n ta.fill, srcCode ta.src, fn, fmt, a, n, d, dw])
  | .vecQnt _ ⟨ta, _⟩ fmt sf sm sc ef pe cs a pd nb j0 zh =>
    some (.vector, 6, [b2n ta.fill, srcCode ta.src, fmt, sf, sm, sc, ef, pe, cs, a, pd, nb, j0, b2n zh])
  | .vecRope _ ⟨ta, _⟩ a d f nh lane poff => some (.vector, 7, [b2n ta.fill, srcCode ta.src, a, d, f, nh, lane, poff])
  | .scan _ ⟨ta, _⟩ lane a b d n => some (.vector, 8, [b2n ta.fill, srcCode ta.src, 0, lane, a, b, d, n])
  | .samplerMerge _ ⟨ta, _⟩ a b d => some (.vector, 8, [b2n ta.fill, srcCode ta.src, 1, 0, a, b, d, 0])
  | .draw _ ⟨ta, _⟩ lane a => some (.vector, 8, [b2n ta.fill, srcCode ta.src, 2, lane, a, 0, 0, 0])
  | .verify _ ⟨ta, _⟩ lane => some (.vector, 8, [b2n ta.fill, srcCode ta.src, 3, lane, 0, 0, 0, 0])
  | .xfrCp _ ta ps pd n rt _ => some (.transfer, 1, [b2n ta.fill, srcCode ta.src, ps, pd, n, rt])
  | .xfrGather _ ta pi pt n pd rt _ => some (.transfer, 2, [b2n ta.fill, pi, pt, n, pd, rt])
  | .xfrMapload _ ta asg pc l => some (.transfer, 3, [b2n ta.fill, asg, pc, l])
  | .xfrScatter _ lane asg ⟨py, _⟩ pc nb => some (.transfer, 4, [lane, asg, py, pc, nb])
  | .xfrRelease _ amask => some (.transfer, 5, [amask])
  | .xfrSignal _ ctr add => some (.transfer, 6, [ctr, add])
  | .xfrEmit _ lane => some (.transfer, 7, [lane])
  | .xfrDflush _ lane => some (.transfer, 8, [lane])
  | _ => none

/-- The slot and the slot value of a score instruction. -/
def encodeSlot (i : Instr) : Option (Slot × Nat) :=
  match instrFields i with
  | none => none
  | some (sl, op, vs) => (fieldsOf sl op).map (fun fs => (sl, packFields op fs vs))

/-- The core that issues a score instruction; 0 for the other commands. -/
def scoreCore : Instr → CoreId
  | .ctlPld c _ _ _ _ _ | .ctlPadd c _ _ | .ctlLoop c _ _ _ | .ctlJump c _ | .ctlFlead c _ _ | .ctlLane c _ _ _ _ => c
  | .cimMvm c _ _ _ _ _ _ _ _ _ _ _ | .cimPre c _ _ _ _ _ _ _ | .cimOut c _ _ _ _ _ _ _ _ _ | .cimCal c _ _ _ => c
  | .attPass c _ _ _ _ _ _ _ _ _ _ | .attMerge c _ _ _ _ _ _ _ _ | .attGemv c _ _ _ _ _ _ _ _ _ _ => c
  | .vecLd c _ _ _ _ _ _ | .vecSt c _ _ _ _ _ | .vecAlu c _ _ _ _ _ _ _ _ _ | .vecTr c _ _ _ _ _ _ | .vecXl c _ _ _ _ _ _ _ => c
  | .vecQnt c _ _ _ _ _ _ _ _ _ _ _ _ _ | .vecRope c _ _ _ _ _ _ _ | .scan c _ _ _ _ _ _ | .samplerMerge c _ _ _ _ => c
  | .draw c _ _ _ | .verify c _ _ | .xfrCp c _ _ _ _ _ _ | .xfrGather c _ _ _ _ _ _ _ | .xfrMapload c _ _ _ _ => c
  | .xfrScatter c _ _ _ _ _ | .xfrRelease c _ | .xfrSignal c _ _ | .xfrEmit c _ | .xfrDflush c _ => c
  | _ => 0

/-- A score instruction without what its execution observes: what its encoding says. -/
def bareInstr : Instr → Instr
  | .ctlPld c ta pt pb wo _ => .ctlPld c ta pt pb wo []
  | .cimMvm c ta eng first g w0 n t h fmt a _ => .cimMvm c ta eng first g w0 n t h fmt a ⟨[], []⟩
  | .cimPre c ta eng t mode ps pe _ => .cimPre c ta eng t mode ps pe []
  | .cimOut c ta eng t dest clr a pd _ _ => .cimOut c ta eng t dest clr a pd [] []
  | .cimCal c emask amask _ => .cimCal c emask amask []
  | .attPass c ⟨ta, _⟩ lane asg h0 nh pp po ql tray exp => .attPass c ⟨ta, []⟩ lane asg h0 nh pp po ql tray exp
  | .attMerge c ⟨ta, _⟩ pa pb po q norm exp lane => .attMerge c ⟨ta, []⟩ pa pb po q norm exp lane
  | .attGemv c ⟨ta, _⟩ pw fmt g w0 n a pd init h => .attGemv c ⟨ta, []⟩ pw fmt g w0 n a pd init h
  | .vecLd c ta ps a n _ _ => .vecLd c ta ps a n [] []
  | .vecSt c ta pd a n _ => .vecSt c ta pd a n []
  | .vecAlu core ⟨ta, _⟩ fn fmt a b c d n bb => .vecAlu core ⟨ta, []⟩ fn fmt a b c d n bb
  | .vecTr c ⟨ta, _⟩ fn a b d n => .vecTr c ⟨ta, []⟩ fn a b d n
  | .vecXl c ⟨ta, _⟩ fn fmt a n d dw => .vecXl c ⟨ta, []⟩ fn fmt a n d dw
  | .vecQnt c ⟨ta, _⟩ fmt sf sm sc ef pe cs a pd nb j0 zh => .vecQnt c ⟨ta, []⟩ fmt sf sm sc ef pe cs a pd nb j0 zh
  | .vecRope c ⟨ta, _⟩ a d f nh lane poff => .vecRope c ⟨ta, []⟩ a d f nh lane poff
  | .scan c ⟨ta, _⟩ lane a b d n => .scan c ⟨ta, []⟩ lane a b d n
  | .samplerMerge c ⟨ta, _⟩ a b d => .samplerMerge c ⟨ta, []⟩ a b d
  | .draw c ⟨ta, _⟩ lane a => .draw c ⟨ta, []⟩ lane a
  | .verify c ⟨ta, _⟩ lane => .verify c ⟨ta, []⟩ lane
  | .xfrCp c ta ps pd n rt _ => .xfrCp c ta ps pd n rt []
  | .xfrGather c ta pi pt n pd rt _ => .xfrGather c ta pi pt n pd rt []
  | .xfrScatter c lane asg ⟨py, _⟩ pc nb => .xfrScatter c lane asg ⟨py, []⟩ pc nb
  | i => i

end Sys2Proof
end

