-- ==== Sys2Proof/Machine/Sha.lean ====
section
/-!
DEFINITION. SHA-256 and HMAC-SHA-256, as the digests of the images (R213, R317) and the tags of the critical commands (R529) use them. The
spec names the two algorithms; they are taken from their published standards. The constants are computed as the standard derives them, and a
hash value is kept as two histories of four words each, from which every round forms one new word of each.
-/
namespace Sys2Proof.Machine.Sha

/-! ## Constants -/

/-- The largest `r` below 2^`n` above a start with `r`^`e` at most `x`, bit by bit from the top. -/
def rootFrom (e x : Nat) : Nat → Nat → Nat
  | 0, r => r
  | n + 1, r => rootFrom e x n (if (r + 2 ^ n) ^ e ≤ x then r + 2 ^ n else r)

/-- The first 32 bits of the fraction of the `e`-th root of a number below 2^12. -/
def fracRoot (e p : Nat) : Nat := rootFrom e (p * 2 ^ (32 * e)) 38 0 % 2 ^ 32

/-- The primes below 312, of which there are 64: a divisor of a composite number below 19² is at most 17. -/
def primes : List Nat :=
  (List.range 312).filter (fun n => decide (1 < n) && [2, 3, 5, 7, 11, 13, 17].all (fun d => n == d || n % d != 0))

/-- A hash value, or its working form: the last four words of both histories, the newest first. -/
structure Hist where
  a : List Word
  e : List Word

/-- The hash value before the first block: the fractions of the square roots of the first eight primes. -/
def start : Hist :=
  let w := (primes.take 8).map (fun p => BitVec.ofNat 32 (fracRoot 2 p))
  { a := w.take 4, e := w.drop 4 }

/-! ## A block -/

/-- A word rotated to the right by several amounts, the results added without carry. -/
def spin (by_ : List Nat) (x : Word) : Word := by_.foldl (fun y n => y ^^^ x.rotateRight n) 0

/-- Bit by bit the second word where the first is 1, else the third. -/
def choose (x y z : Word) : Word := z ^^^ (x &&& (y ^^^ z))

/-- Bit by bit what at least two of three words hold. -/
def most (x y z : Word) : Word := (x &&& y) ||| (z &&& (x ||| y))

/-- One round with the sum of its constant and message word. -/
def Hist.turn (h : Hist) (kw : Word) : Hist :=
  let at_ (l : List Word) (i : Nat) : Word := l.getD i 0
  let t := kw + at_ h.e 3 + spin [6, 11, 25] (at_ h.e 0) + choose (at_ h.e 0) (at_ h.e 1) (at_ h.e 2)
  { a := (t + spin [2, 13, 22] (at_ h.a 0) + most (at_ h.a 0) (at_ h.a 1) (at_ h.a 2)) :: h.a.take 3
    e := (at_ h.a 3 + t) :: h.e.take 3 }

/-- The message word sixteen places on, from the sixteen words before it, the oldest first. -/
def later (w : List Word) : Word :=
  let old := w.getD 1 0
  let new := w.getD 14 0
  w.getD 0 0 + (spin [7, 18] old ^^^ old >>> 3) + w.getD 9 0 + (spin [17, 19] new ^^^ new >>> 10)

/-- The rounds of a block: a window of sixteen message words moves along the constants. -/
def turns : List Nat → List Word → Hist → Hist
  | [], _, h => h
  | p :: ps, w, h => turns ps (w.drop 1 ++ [later w]) (h.turn (BitVec.ofNat 32 (fracRoot 3 p) + w.getD 0 0))

/-- `n` big-endian words of a run of bytes. -/
def bigWords (n : Nat) (bs : Bytes) : List Word :=
  (List.range n).map (fun i => BitVec.ofNat 32 (leNat ((bs.drop (4 * i)).take 4).reverse))

/-- A hash value after one block of 64 bytes. -/
def Hist.absorb (h : Hist) (bs : Bytes) : Hist :=
  let t := turns primes (bigWords 16 bs) h
  { a := List.zipWith (· + ·) h.a t.a, e := List.zipWith (· + ·) h.e t.e }

/-- The hash value after the blocks of a padded message. -/
def absorbAll : Nat → Hist → Bytes → Hist
  | 0, h, _ => h
  | n + 1, h, bs => absorbAll n (h.absorb (bs.take 64)) (bs.drop 64)

/-! ## Messages -/

/-- A message with its end mark, zeros up to 8 bytes below a multiple of 64, and its length in bits. -/
def padded (bs : Bytes) : Bytes :=
  bs ++ 0x80#8 :: (List.replicate ((119 - bs.length % 64) % 64) 0 ++ (natLe 8 (8 * bs.length)).reverse)

/-- The SHA-256 of a run of bytes. -/
def sha256 (bs : Bytes) : Bytes :=
  let m := padded bs
  let h := absorbAll (m.length / 64) start m
  ((h.a ++ h.e).map (fun w => (natLe 4 w.toNat).reverse)).flatten

/-- HMAC-SHA-256 with a key of at most 64 bytes. -/
def hmac (key m : Bytes) : Bytes :=
  let under (x : Byte) : Bytes := (key ++ List.replicate (64 - key.length) 0).map (x ^^^ ·)
  sha256 (under 0x5c ++ sha256 (under 0x36 ++ m))

end Sys2Proof.Machine.Sha
end

