-- ==== Sys2Proof/Machine/Layout.lean ====
section
/-!
DEFINITION. Layout images (07_scores_and_timing.md R200 to R214; 08_instruction_reference.md R221, R231 to R233; 21 R548; 17 R473): their
parts and the loader's checks.
-/
namespace Sys2Proof.Machine

/-- A little-endian field of a run of bytes. -/
def fieldN (b : Bytes) (at_ n : Nat) : Nat := leNat ((b.drop at_).take n)

/-! ## The header (Table 7-6) and the core directory (Tables 7-7, 7-8) -/

def hdrGrade (b : Bytes) : Nat := fieldN b 6 1
def hdrRows (b : Bytes) : Nat := fieldN b 8 1
def hdrCols (b : Bytes) : Nat := fieldN b 9 1
def hdrLead (b : Bytes) : Nat := fieldN b 12 2
def hdrVariants (b : Bytes) : Nat := fieldN b 14 1
def hdrLanes (b : Bytes) : Nat := fieldN b 15 1
def hdrStages (b : Bytes) : Nat := fieldN b 16 2
def hdrMode (b : Bytes) : Nat := fieldN b 18 1
def hdrClasslat (b : Bytes) (i : Nat) : Nat := fieldN b (20 + i) 1
def hdrBeat (b : Bytes) (v : Nat) : Nat := fieldN b (32 + 4 * v) 4
def hdrDir (b : Bytes) : Nat := fieldN b 64 8
def hdrDigest (b : Bytes) : Bytes := (b.drop 96).take 32

/-- Cores of the rectangle. -/
def hdrCores (b : Bytes) : Nat := hdrRows b * hdrCols b * 144

/-- The core record of a directory index. -/
def recAt (b : Bytes) (i : Nat) : Bytes := (b.drop (hdrDir b + 64 * i)).take 64

/-- The next 64-byte boundary. -/
def align64 (n : Nat) : Nat := (n + 63) / 64 * 64

/-- The end of the core directory, where the stage map begins (R339); the boundary after it; the boundary after a replica map (R473). -/
def stageMap (b : Bytes) : Nat := hdrDir b + 64 * hdrCores b
def afterStage (b : Bytes) : Nat := align64 (stageMap b + 2 * hdrCores b)
def hasReplica (b : Bytes) : Bool := fieldN b (afterStage b) 4 == 0x31524C51
def afterReplica (b : Bytes) : Nat := align64 (afterStage b + 4 + hdrLanes b + hdrCores b)

/-- Where the telemetry map lies, if the image has one (R548). -/
def teleMap (b : Bytes) : Option Nat :=
  let at_ := if hasReplica b then afterReplica b else afterStage b
  if fieldN b at_ 4 = 0x31444C51 then some (at_ + 4) else none

/-- An assignment entry of 32 bytes (Table 7-8). -/
def asgOf (b : Bytes) : Asg :=
  { layer := fieldN b 0 2, shard := fieldN b 2 2, s := fieldN b 4 2, h := fieldN b 6 1, format := fieldN b 7 1, base := fieldN b 8 4
    slots := fieldN b 12 2, kmax := fieldN b 14 2, mapBase := fieldN b 16 4, stride := fieldN b 20 1 }

/-- The core record of a directory index with its assignments, stage and telemetry map record. -/
def coreRecOf (b : Bytes) (i : Nat) : CoreRec :=
  let r := recAt b i
  let t : Bytes := match teleMap b with
    | some at_ => (b.drop (at_ + 272 * i)).take 272
    | none => []
  { scoreOff := fieldN r 0 4, scoreLen := fieldN r 4 4, shelfOff := fieldN r 8 4, shelfLen := fieldN r 12 4, shelfBase := fieldN r 16 4
    masterBase := fieldN r 20 4, masterLen := fieldN r 24 4
    asgs := (List.range (fieldN r 32 1)).map (fun a => asgOf ((b.drop (fieldN r 28 4 + 32 * a)).take 32))
    ventry := (List.range 8).map (fun v => fieldN r (36 + 2 * v) 2)
    expBase := fieldN r 52 4, expRecords := fieldN r 56 4, sampBase := fieldN r 60 4, stage := fieldN b (stageMap b + 2 * i) 2
    digBase := fieldN t 0 4, digRecords := fieldN t 4 4, trcBase := fieldN t 8 4, trcRecords := fieldN t 12 4
    ibase := if t = [] then [] else (List.range 64).map (fun n => fieldN t (16 + 4 * n) 4) }

/-! ## The header's checks -/

/-- Logical isle columns of the grade that the header names. -/
def hdrGridCols (b : Bytes) : Nat := if hdrGrade b = 0x48 then 9 else 8

/-- Byte offset of the first header field out of its range, or of the first reserved byte that is not 0 (`FORMAT`). -/
def formatErr (b : Bytes) : Option Nat :=
  let reserved := [19] ++ (List.range 4).map (· + 28) ++ (List.range 24).map (· + 72) ++ (List.range 128).map (· + 128)
  let v := hdrVariants b
  let checks : List (Nat × Bool) :=
    [(0, fieldN b 0 4 == 0x31594C51), (4, fieldN b 4 2 == 1), (6, hdrGrade b == 0x48 || hdrGrade b == 0x40), (8, decide (1 ≤ hdrRows b) && decide (hdrRows b ≤ 8)),
     (9, decide (1 ≤ hdrCols b) && decide (hdrCols b ≤ hdrGridCols b)),
     (10, decide (fieldN b 10 1 / hdrGridCols b < hdrRows b) && decide (fieldN b 10 1 % hdrGridCols b < hdrCols b)),
     (11, decide (fieldN b 11 1 / 16 < 12) && decide (fieldN b 11 1 % 16 < 12)),
     (14, decide (1 ≤ v) && decide (v ≤ 8)),
     (15, if hdrMode b = 0 then decide (1 ≤ hdrLanes b) && decide (hdrLanes b ≤ 4) else decide (5 ≤ hdrLanes b) && decide (hdrLanes b ≤ 32)),
     (16, decide (1 ≤ hdrStages b) && decide (hdrStages b ≤ 8192)), (18, decide (hdrMode b ≤ 1))] ++
    (List.range 8).map (fun i => (32 + 4 * i, if i < v then hdrBeat b i != 0 else hdrBeat b i == 0)) ++
    reserved.map (fun i => (i, fieldN b i 1 == 0))
  ((checks.filter (fun c => !c.2)).map Prod.fst).min?

/-- Latencies of the stepping-dependent classes (Table 7-3). -/
def classLat (step : Nat) : List Nat := if step = 0 then [5, 4, 14, 9, 20, 6, 48, 12] else [4, 3, 10, 7, 14, 5, 32, 9]

/-- The pads of the classes in use (R207). -/
def padsOf (b : Bytes) (step : Nat) : List (Nat × Int) :=
  (List.range 8).filterMap (fun i =>
    if hdrClasslat b i = 0xFF then none else some (i, (hdrClasslat b i : Int) - ((classLat step).getD i 0 : Nat)))

/-- The pads as `SCH_PAD.PADS` shows them. -/
def padWord (b : Bytes) (step : Nat) : Nat := ((padsOf b step).map (fun p => p.2.toNat % 32 * 2 ^ (5 * p.1))).sum

/-! ## The static walk of a score (R221, R231 to R233) -/

/-- What follows when the sequencer has come to a bundle with these loops open: a loop whose body has just ended repeats or closes. At most
`n` loops are looked at. -/
def loopEnd : Nat → Nat → List OpenLoop → Nat × List OpenLoop
  | n + 1, pc, l :: ls =>
    if pc = l.last + 1 then
      (if l.left = 0 then loopEnd n pc ls else (l.first, { l with left := l.left - 1 } :: ls))
    else (pc, l :: ls)
  | _, pc, ls => (pc, ls)

/-- The stepping-dependent class of an instruction (Table 7-3, R248). -/
def classOf : Instr → Option Nat
  | .vecAlu _ _ fn fmt _ _ _ _ _ _ => some (if fn = 8 ∨ fmt = 1 then 1 else 0)
  | .vecTr _ _ _ _ _ _ _ => some 2
  | .vecXl _ _ _ _ _ _ _ _ => some 3
  | .vecQnt _ _ _ _ _ _ _ _ _ _ _ _ _ _ => some 4
  | .vecRope _ _ _ _ _ _ _ _ => some 5
  | .scan _ _ _ _ _ _ _ => some 6
  | .samplerMerge _ _ _ _ _ => some 6
  | .draw _ _ _ _ => some 6
  | .verify _ _ _ => some 6
  | .xfrScatter _ _ _ _ _ _ => some 7
  | _ => none

/-- The next bundle and the open loops after the control instruction of bundle `pc`; none where R231 or R232 forbids it. -/
def walkControl (pc : Nat) (loops : List OpenLoop) (is : List Instr) : Option (Nat × List OpenLoop) :=
  let inner (e : Nat) : Bool := match loops with
    | l :: _ => decide (e ≤ l.last)
    | [] => true
  match is.find? (fun i => match i with | .ctlLoop _ _ _ _ => true | .ctlJump _ _ => true | _ => false) with
  | some (.ctlLoop _ lc count len) =>
    if inner (pc + len) = false then none
    else if count = 0 ∨ len = 0 then some (pc + len + 1, loops)
    else if 4 ≤ loops.length ∨ loops.any (fun l => l.lc == lc) then none
    else some (pc + 1, { lc := lc, first := pc + 1, last := pc + len, left := count - 1 } :: loops)
  | some (.ctlJump _ target) =>
    match loops with
    | l :: _ => if l.first ≤ target ∧ target ≤ l.last ∧ pc ≠ l.last then some (target, loops) else none
    | [] => some (target, loops)
  | _ => some (pc + 1, loops)

/-- Does the body that stands before bundle `pc` at cycle `t` end exactly at the beat's length, with every bundle in order? -/
def walk (score : Bytes) (unused : Nat → Bool) (beat : Nat) : Nat → Nat → Nat → List OpenLoop → Bool
  | 0, _, _, _ => false
  | n + 1, t, pc, loops =>
    let (pc, loops) := loopEnd 5 pc loops
    if t = beat then loops.isEmpty
    else if beat < t ∨ score.length ≤ 32 * pc then false
    else
      match decodeBundle 0 (leNat ((score.drop (32 * pc)).take 32)) with
      | none => false
      | some (d, is) =>
        if is.any (fun i => match classOf i with | some k => unused k | none => false) then false
        else
          match walkControl pc loops is with
          | none => false
          | some (pc', loops') => walk score unused beat n (t + 1 + d) pc' loops'

/-- Is the score of a core record in order (`SCORE`)? A core without a sampling region issues no `VEC.SAMP`, class 6 (R352). -/
def scoreOk (b : Bytes) (r : CoreRec) : Bool :=
  let score := (b.drop r.scoreOff).take r.scoreLen
  decide (r.scoreLen % 32 = 0) && decide (r.scoreLen ≤ 0x100000) && decide (r.scoreOff + r.scoreLen ≤ b.length) &&
    (List.range (hdrVariants b)).all (fun v =>
      decide (32 * r.ventry.getD v 0 < r.scoreLen) &&
        walk score (fun k => hdrClasslat b k == 0xFF || (k == 6 && r.sampBase == 0xFFFFFFFF)) (hdrBeat b v) (hdrBeat b v + 1) 0 (r.ventry.getD v 0) [])

/-! ## Regions -/

/-- The directory index of the root core. -/
def hdrRoot (b : Bytes) : Nat :=
  (fieldN b 10 1 / hdrGridCols b * hdrCols b + fieldN b 10 1 % hdrGridCols b) * 144 + fieldN b 11 1 / 16 * 12 + fieldN b 11 1 % 16

/-- The cabinet regions that a core record declares (R313, Table 10-2; the trace ring at the root core only, R548): base and length, empty ones
left out. -/
def declared (root : Bool) (r : CoreRec) : List (Nat × Nat) :=
  ([(r.masterBase, 2 * r.masterLen), (r.expBase, 16 * r.expRecords), (r.digBase, 576 * r.digRecords)] ++
    (if root then [(r.trcBase, 64 * r.trcRecords)] else []) ++
    (if r.sampBase = 0xFFFFFFFF then [] else [(r.sampBase, 576 * 8192)]) ++
    (r.asgs.map (fun (a : Asg) => [(a.base, a.slots * a.h * drawerBytes a.format), (a.mapBase, 64 * a.stride * 8192)])).flatten).filter
      (fun x => x.2 != 0)

/-- No two regions of a list overlap. -/
def disjoint : List (Nat × Nat) → Bool
  | [] => true
  | x :: xs => xs.all (fun y => decide (x.1 + x.2 ≤ y.1) || decide (y.1 + y.2 ≤ x.1)) && disjoint xs

/-- Is an assignment's every field in its range (Table 7-8, R146, R148)? -/
def asgOk (a : Asg) : Bool :=
  decide (a.layer < 1024) && decide (1 ≤ a.s) && decide (a.s ≤ 1024) && decide (a.shard < a.s) && decide (1 ≤ a.h) && decide (a.h ≤ 16) &&
    [3, 4, 6, 7].contains a.format && decide (a.base % 64 = 0) && decide (a.mapBase % 64 = 0) &&
    decide (a.kmax ≤ (262144 + 16 * a.s - 1) / (16 * a.s)) && decide (a.stride = (4 + 2 * a.kmax + (a.kmax + 7) / 8 + 63) / 64)

/-- Are a core record's regions in order (`REGION`)? -/
def regionOk (b : Bytes) (root : Bool) (r : CoreRec) : Bool :=
  let ds := declared root r
  ds.all (fun x => decide (x.1 + x.2 ≤ 0x5600000)) && disjoint ds &&
    (r.shelfLen == 0 || (decide (r.shelfBase % 64 = 0) && decide (r.shelfLen % 64 = 0) && decide (r.shelfBase + r.shelfLen ≤ 0x3F0000) &&
      decide (r.shelfOff + r.shelfLen ≤ b.length))) && decide (r.asgs.length ≤ 8) && r.asgs.all asgOk

/-! ## The partition an image makes -/

/-- A partition as the image describes it, at an origin, with nothing running. -/
def layoutPart (b : Bytes) (addr len row col : Nat) : Part :=
  { loaded := true, imageAddr := addr, imageLen := len, originRow := row, originCol := col, rows := hdrRows b, cols := hdrCols b
    rootIsle := fieldN b 10 1, rootCore := fieldN b 11 1, lead := hdrLead b, variants := hdrVariants b, lanes := hdrLanes b
    stages := hdrStages b, mode := hdrMode b, classlat := (List.range 8).map (hdrClasslat b), beatLen := (List.range 8).map (hdrBeat b)
    digest := hdrDigest b, noMap := (teleMap b).isNone
    dir := (List.range (hdrCores b)).map (fun i => (i, coreRecOf b i))
    laneRep := if hasReplica b then
        (List.range (hdrLanes b)).filterMap (fun l => let v := fieldN b (afterStage b + 4 + l) 1; if v = 0xFF then none else some (l, v + 1))
      else []
    coreRep := if hasReplica b then
        (List.range (hdrCores b)).filterMap (fun i =>
          let v := fieldN b (afterStage b + 4 + hdrLanes b + i) 1
          if v = 0xFF then none else some (i, v + 1))
      else [] }

/-- The greatest distance of a core from the root (R208). -/
def State.farthest (s : State) (q : Part) : Nat := ((s.partCores q).map (s.dist q)).foldl Nat.max 0

/-- Entries of views that loaded partitions leave free (`INFLIGHT`). -/
def State.entriesFree (s : State) : Nat :=
  8192 - ((List.range 8).map (fun p => let q := s.part p; if q.loaded then q.stages * q.lanes else 0)).sum

/-- The checks of Table 7-9 on a staged image, in table order: the status and `DETAIL` of the first that fails. -/
def State.checkImage (s : State) (b : Bytes) (addr len row col : Nat) : Option (Nat × Nat) :=
  let q := layoutPart b addr len row col
  let step := s.fld (rSys 0) 19 16
  let grade := s.fld (rSys 0) 15 8
  if b.length ≠ len ∨ Sha.sha256 (b.drop 128) ≠ hdrDigest b then some (0x14, 0)
  else
    match formatErr b with
    | some at_ => some (0x15, at_)
    | none =>
      if hdrGrade b ≠ grade ∨ s.gridCols < hdrCols b then some (0x16, hdrGrade b)
      else
        match (padsOf b step).find? (fun p => decide (p.2 < 0)) with
        | some p => some (0x17, p.1)
        | none =>
          match (padsOf b step).find? (fun p => decide (31 < p.2)) with
          | some p => some (0x18, p.1)
          | none =>
            let w := 2 * s.farthest q + 16
            if q.lead < w then some (0x19, w)
            else if s.entriesFree < q.stages * q.lanes then some (0x1A, s.entriesFree)
            else
              match q.dir.find? (fun r => !scoreOk b r.2) with
              | some r => some (0x1B, r.1)
              | none => (q.dir.find? (fun r => !regionOk b (r.1 == hdrRoot b) r.2)).map (fun r => (0x1C, r.1))

end Sys2Proof.Machine
end

