-- ==== Sys2Proof/Machine/Load.lean ====
section
/-!
DEFINITION. Loading, unloading and resetting partitions (07_scores_and_timing.md R212 to R217; 11 R333; 15 R432), and what ends or halts a
partition's work.
-/
namespace Sys2Proof.Machine

/-! ## Halting a partition and ending its requests -/

/-- A request's drawers freed by the device itself (R333). -/
def State.freeMaps (s : State) (e : Nat) : State :=
  (s.shards (s.req e).part).foldl (fun s x => s.releaseMap x.1 x.2.1 x.2.2 e) s

/-- A request ends without beats (R333): drawers freed, `END` written at once; not where its `END` is held already (R342, R384). -/
def State.endNow (s : State) (e status : Nat) : State :=
  let r := s.req e
  if (s.ring r.func 1 r.cring).held.any (fun x => x.1 == some e && x.2.1) then s
  else
    let s := s.freeMaps e
    if r.state = 1 then s.endIdle e status
    else if r.state = 4 then (s.markArea e 2).endIdle e status
    else if r.state = 2 ∨ r.state = 3 then
      ((((s.stopCopy e).updReq e (fun r => { r with status := status, held := [], parking := false, resuming := false })).reqState e 5).endRec e).endDraft e status
    else s.endRec e

/-- Every request of a partition that runs no beats ends; nothing of it is in flight any more. -/
def State.endAll (s : State) (p status : Nat) : State :=
  let s := (s.recallSheet p).updPart p (fun q => { q with groups := [], words := [], relQ := [], relOut := [], history := [] })
  (s.partReqs p).foldl (fun s e => s.endNow e status) s

/-- Does a partition run no beats (R333): no live version, not started, halted, held, or held at a pause duty of 16/16? A momentary stall is no stop. -/
def Part.idle (q : Part) : Bool :=
  !q.liveValid || !q.started || q.halted || q.held || decide (q.appliedDuty = 16) || q.suspended != []

/-- A weight operation or staging in progress ends with `ABANDONED` (R333). -/
def State.dropWeightOp (s : State) (p : Nat) : State :=
  let q := s.part p
  let end_ (s : State) (op : Nat) : State :=
    (s.updPart p (fun q => { q with wop := none, staging := none, other := 0, otag := 0, barrier := false })).wswEnd p op 0x29 0
  match q.wop with
  | some w => end_ s w.op
  | none => if q.staging.isSome then end_ s 1 else s

/-! ## Step 9 of R215 -/

/-- The counters of a partition that a load clears (R286, R369, R553). -/
def State.clearCounters (s : State) (p : Nat) : State :=
  ([rSch (0x150 + p), rSch (0x170 + p), rSch (0xF20 + p), rSch (0xF28 + 2 * p), rSch (0xF29 + 2 * p)] ++
    (List.range 8).map (fun k => rSch (0xF40 + 8 * p + k)) ++ (List.range 64).map (fun b => rTel (0x500 + 64 * p + b))).foldl (fun s r => s.setRegN r 0) s

/-- The free lists of a core filled, slots taken in ascending order from 0 (R150), and `ATT_SLOTS`: every slot is free (R168). -/
def State.fillFree (s : State) (c : CoreId) (r : CoreRec) : State :=
  (r.asgs.zip (List.range 8)).foldl (fun s x =>
    let bs := ((List.range x.1.slots).map (fun j => natLe 2 (x.1.slots - 1 - j))).flatten
    let s := (List.range (ceilDiv bs.length 64)).foldl (fun (s : State) k =>
      s.cabPut c (freeEntry x.2 0 + 64 * k) ((piece bs k ++ List.replicate 64 0).take 64)) s
    s.setRegN (s.sreg c (0x880 + x.2)) (x.1.slots % 65536 * 65537)) s

/-- Score, shelf data, tags, clamp counters and, where asked, free lists of one core. -/
def State.programCore (s : State) (img : Bytes) (refill : Bool) (c : CoreId) (r : CoreRec) : State :=
  let n := r.shelfLen / 64
  let b := r.shelfBase / 64
  let s := s.wr (wa spScore c 0) ((img.drop r.scoreOff).take r.scoreLen)
  let s := s.wr (wa spShelf c r.shelfBase) ((img.drop r.shelfOff).take r.shelfLen)
  let s := s.updCore c (fun k =>
    { k.idle with
      tags := (List.range n).map (fun i => (tagKey spShelf (b + i), true)), maps := []
      bad := k.bad.filter (fun l => !(decide (lineId spShelf r.shelfBase ≤ l) && decide (l < lineId spShelf r.shelfBase + n))) })
  let s := (List.range 64).foldl (fun s i => s.setRegN (s.sreg c (0x820 + i)) 0) s
  if refill then s.fillFree c r else s

/-- The accumulators of a partition's cores become undefined (R121, R432). -/
def State.loseAccs (s : State) (p : Nat) : State := (s.partCores (s.part p)).foldl (fun s c => s.updCore c Core.loseAcc) s

/-- Step 9 of R215 for a loaded partition, from its layout image: every core, pads and lead, counters; the layout stands before its first
beat. -/
def State.program (s : State) (p : Nat) (img : Bytes) (refill : Bool) : State :=
  let q := s.part p
  let s := q.dir.foldl (fun s r => s.programCore img refill (s.dirCore q r.1) r.2) (s.recallSheet p)
  let s := s.setReg64 (rSch (0xF08 + 2 * p)) (padWord img (s.fld (rSys 0) 19 16) + (2 * q.dmax + 16) % 65536 * 2 ^ 40)
  (s.clearCounters p).updPart p (fun q =>
    { q with score := 0, total := 0, beat := 0, variant := 0, begun := false, startAt := none, items := [], waves := [], run := true
             sheet := none, history := [], groups := [], words := [], stallBeat := 0, pausedSlots := [], started := false
             appliedDuty := 0, fwd := [], fwdAt := 0 })

/-! ## Loads -/

def State.loadOf (s : State) (p : Nat) : Option LoadSt := s.loads.find? (fun l => l.part == p)

/-- A load's entry replaced. -/
def State.putLoad (s : State) (l : LoadSt) : State := { s with loads := s.loads.map (fun (x : LoadSt) => if x.part = l.part then l else x) }

/-- A restart of the serving scheduler ends every load (R216 item 4). -/
def State.abortLoads (s : State) : State := s.loads.foldl (fun s l => s.failLoad l 0x1D 0xFFFF) s

/-- Is a logical isle failed, parked or otherwise without power (`PLACE`)? -/
def State.isleOut (s : State) (l : Nat) : Bool := s.isleFail.contains (s.physIsle l) || s.isleState (s.physIsle l) != 2

/-- A layout load accepted by the critical command mailbox begins (R212, R215 step 1, R216 item 1). -/
def State.startLoad (s : State) (addr len p row col : Nat) : State :=
  if (s.loadOf p).isSome then s.log { cls := 1, source := 82, part := p, reg := 0xF00 + p, a := 0x11, b := p }
  else if s.devState ≠ 7 ∧ s.devState ≠ 8 then s.loadStat p 0x10 s.devState 1
  else if (s.part p).loaded then s.loadStat p 0x11 p 1
  else
    let l : LoadSt := { addr := addr, len := len, part := p, row := row, col := col }
    let s := { s with loads := s.loads ++ [l] }
    s.loadStat p 1 0 1

/-- An unload (1) or a partition reset (2) asked of the loader (R212, R333, R432): accepted in Ready and Serving only; of a partition that is
not loaded it is logged as an error. -/
def State.askPart (s : State) (p k : Nat) : State :=
  if (s.loadOf p).isNone && s.devState != 7 && s.devState != 8 then s.loadStat p 0x10 s.devState 1
  else if (s.part p).loaded then s.updPart p (fun q => { q with asked := k })
  else s.log { cls := 1, source := 82, part := p, reg := 0xF00 + p, a := 0x11, b := p }

/-- `LOAD_HEADER_READ` (R214, R215 step 1): the 256-byte header arrives or its read fails; the rectangle is checked and reserved. -/
def execLoadHeaderRead (part : Nat) (header : Option Bytes) (s : State) : Res :=
  match s.loadOf part with
  | none => .next s
  | some l =>
    if l.phase ≠ 1 ∨ s.schUp = false then .next s
    else
      match s.dma 0 header with
      | none => .next (s.failLoad l 0x13 0)
      | some h =>
        let gc := s.gridCols
        let rows := hdrRows h
        let cols := hdrCols h
        if 8 < l.row + rows ∨ gc < l.col + cols then .next (s.failLoad l 0x12 0xFFFF)
        else
          let isles := ((List.range rows).map (fun r => (List.range cols).map (fun c => (l.row + r) * gc + l.col + c))).flatten
          match isles.find? (fun i => s.isleOut i || (s.partOfIsle i).isSome || (s.loadAt i).isSome) with
          | some i =>
            let s := if (s.loadAt i).isSome then s.log { cls := 1, source := 82, part := part, reg := 0xF00 + part, a := 0x12, b := i } else s
            .next (s.failLoad l 0x12 i)
          | none =>
            match s.edgeBroken isles with
            | some i => .next (s.failLoad l 0x12 i)
            | none =>
            let l' := { l with rows := rows, cols := cols, phase := 2 }
            .next ((s.putLoad l').loadStat part 1 0 2)

/-- The cores of a load's rectangle, in directory order. -/
def State.loadCores (s : State) (l : LoadSt) : List CoreId :=
  let q : Part := { originRow := l.row, originCol := l.col, rows := l.rows, cols := l.cols }
  s.partCores q

/-- Bytes of each slice that the load staging fills (R215 step 2). -/
def State.stageShare (s : State) (l : LoadSt) : Nat :=
  let n := (s.loadCores l).length
  Nat.min 0x5600000 (64 * ((l.len + 64 * n - 1) / (64 * n)))

/-- The staged image. -/
def State.staged (s : State) (l : LoadSt) : Bytes :=
  (((s.loadCores l).map (fun c => s.cabBytes c 0 (s.stageShare l))).flatten).take l.len

/-- Do writes of the staging wait for their slots? -/
def State.stagingWaits (s : State) (l : LoadSt) : Bool :=
  (s.loadCores l).any (fun c => (s.core c).claims.any (fun k => match k.kind with
    | .write _ => true
    | _ => false))

/-- `LOAD_TRANSFER_DONE` (R214, R215 steps 2 to 8): the image has been read, and goes to the load staging as background writes (R296), or a read
failed; the checks run. An image that passes them with another rectangle than the one reserved from its header was changed during the load,
an error under R14 (R196). -/
def execLoadTransferDone (part : Nat) (image : Option Bytes) (s : State) : Res :=
  match s.loadOf part with
  | none => .next s
  | some l =>
    if l.phase ≠ 2 ∨ s.schUp = false then .next s
    else
      match s.dma 0 image with
      | none => .next (s.failLoad l 0x13 0)
      | some b =>
        let share := s.stageShare l
        let cores := s.loadCores l
        let s := (cores.zip (List.range cores.length)).foldl (fun s x =>
          s.bgWrite x.1 0 ((b.drop (share * x.2)).take share)) s
        let l' := { l with phase := 3 }
        match s.checkImage b l.addr l.len l.row l.col with
        | some (st, d) => .next (s.failLoad l' st d)
        | none =>
          if hdrRows b ≠ l.rows ∨ hdrCols b ≠ l.cols then .fault (.unpredictable .contract)
          else
            let l' := { l with phase := 4 }
            .next ((s.putLoad l').loadStat part 1 0 4)

/-- `LOAD_PROGRAMMED` (R215 steps 9 and 10): the partition exists, without a live version; an isle controller that is down holds its writes
(Table 19-2). -/
def execLoadProgrammed (part : Nat) (s : State) : Res :=
  match s.loadOf part with
  | none => .next s
  | some l =>
    let img := s.staged l
    let old := s.part part
    let q := layoutPart img l.addr l.len l.row l.col
    if l.phase ≠ 4 ∨ s.schUp = false ∨ s.stagingWaits l = true ∨ (s.partIsles q).any (fun i => !s.icUp (s.physIsle i)) then .next s
    else
      let q := { q with dmax := s.farthest q, debug := old.debug, debugAsk := old.debugAsk, wswStatus := old.wswStatus
                        wswDetail := old.wswDetail, commits := old.commits }
      let s := (s.setPart part q).program part img true
      let s := s.setFld (rTel (0x20 + part)) 1 1 (b2n q.noMap)
      .next (((s.dropLoad part).loadStat part 2 0 5).send (.modeReport part q.mode))

/-! ## Unloading and resetting -/

/-- `UNLOAD` (R333): the unload that a reconfiguration asked for begins; a partition without beats ends at once, also where it stops only after its
unload has begun. -/
def execUnload (part : Nat) (s : State) : Res :=
  let q := s.part part
  if q.loaded = false ∨ s.schUp = false then .next s
  else if q.unloading ∧ q.idle then .next ((s.endAll part 0x0B).unloadDone part)
  else if q.asked ≠ 1 then .next s
  else
    let s := s.updPart part (fun q => { q with asked := 0 })
    let s := s.dropWeightOp part
    if q.idle then .next ((s.endAll part 0x0B).unloadDone part)
    else
      let s := s.updPart part (fun q => { q with unloading := true })
      .next ((s.partReqs part).foldl (fun s e => s.cancelReq e 0x0B true) s)

/-- `PARTITION_RESET` (R432): `image` is the layout image read again from host memory. A swap in its first two steps goes straight to its
hold; beat 0 then waits for the live slot's switch. -/
def execPartitionReset (part : Nat) (image : Option Bytes) (s : State) : Res :=
  let q := s.part part
  if q.loaded = false ∨ q.asked ≠ 2 ∨ s.schUp = false then .next s
  else
    let s := s.updPart part (fun q => { q with asked := 0, recovery := none })
    let s := (s.haltPart part).endAll part 0x0B
    match s.dma 0 image with
    | none => .next (s.loadStat part 0x13 0 4)
    | some img =>
      let s := ((s.loseAccs part).program part img true).loadStat part 2 0 5
      match q.wop with
      | some w => if w.step ≤ 2 then .next (s.swapHold part) else .next s
      | none => if q.liveValid then .next (s.startPulse part) else .next s

end Sys2Proof.Machine
end

