-- ==== Sys2Proof/Machine/Critical.lean ====
section
/-!
DEFINITION. Critical commands (20_security.md R528 to R534) and what SEC carries out itself (R506, R507, R517, R523).
-/
namespace Sys2Proof.Machine

/-! ## The mailbox (R529 to R531) -/

/-- Is SEC running? -/
def State.secUp (s : State) : Bool := s.fld (rSys 0x50) 1 0 == 0

/-- Do the bytes of a record from one offset up to another read 0? -/
def zeros (r : Bytes) (from_ upto : Nat) : Bool := ((r.drop from_).take (upto - from_)).all (· == 0)

/-- Check 9 on `FLAGS`, the reserved bytes and `ARG` (Tables 20-3 and 20-4). -/
def State.argOk (s : State) (req : Nat) (r : Bytes) : Bool :=
  let n (at_ k : Nat) : Nat := fieldN r at_ k
  let flags := n 2 1
  zeros r 3 8 &&
    match n 0 1 with
    | 1 =>
      let pldm := flags / 2 % 2 == 1
      decide (flags < 4) && (flags % 2 == 0 || s.fld (rSec 4) 3 3 == 1) && pldm == (req == 1) &&
        (if pldm then n 24 8 == 0 else n 24 8 % 4096 == 0) && decide (n 32 4 ≤ 48 * 2 ^ 20) && zeros r 44 48
    | 2 => flags == 0 && zeros r 28 48
    | 3 => flags == 0 && zeros r 40 48
    | 4 => flags == 0 && zeros r 25 48
    | 5 => flags == 0 && decide (n 32 4 ≤ 4 * 2 ^ 20) && zeros r 36 48
    | 6 => flags == 0 && n 24 1 / 8 % 2 == 0 && decide (n 24 1 < 128) && zeros r 25 26 && zeros r 36 48
    | 7 => flags == 0 && decide (n 24 1 ≤ 3) && (if n 24 1 = 3 then decide (n 25 1 < 80) else n 25 1 == 0) && zeros r 26 48
    | _ => false

/-- A refusal at check 7 (R532): counted; the sixteenth within 60 s locks the mailbox. -/
def State.tagRefused (s : State) : State :=
  let s := (s.satFld (rSec 0) 31 16 1).secEvent 0 0
  let l := s.now :: s.tagFails.filter (fun t => decide (s.now < t + 60000000000))
  let s := { s with tagFails := l }
  if 16 ≤ l.length then { s.setFld (rSec 0) 1 1 1 with lockAt := s.now, tagFails := [] }.secEvent 2 0 else s

/-- Checks 1 to 10 of Table 20-5 on a record of a requester (0 PF, 1 BMC): the state, and the status of the first check that fails. -/
def State.secCheck (s : State) (req : Nat) (r : Bytes) : State × Option Nat :=
  let op := fieldN r 0 1
  let owned := s.fld (rSec 0) 0 0 == 1
  let ctr := rSec (0x24 + 2 * req)
  if s.secUp = false then (s, some 0x10)
  else if s.fld (rSec 0) 1 1 = 1 then (s, some 0x11)
  else if (req = 0 ∧ s.secRec.isSome) ∨ ((op = 1 ∨ op = 5) ∧ s.fwu.isSome) then (s, some 0x12)
  else if owned = false ∧ op ≠ 5 then (s, some 0x13)
  else if fieldN r 1 1 ≠ req ∨ (req = 1 ∧ s.fld (rSec 4) 0 0 = 0) then (s, some 0x14)
  else if fieldN r 16 8 ≠ s.reg64 (rSec 2) then (s, some 0x15)
  else if (owned || op != 5) && (r.drop 48).take 16 != (Sha.hmac s.cmdKey (r.take 48)).take 16 then (s.tagRefused, some 0x16)
  else if fieldN r 8 8 ≤ s.reg64 ctr then (s.secEvent 1 0, some 0x17)
  else
    let s := s.setReg64 ctr (fieldN r 8 8)
    if s.argOk req r = false then (s, some 0x18)
    else if ((s.devState = 6 ∨ s.devState = 9) ∧ op ≠ 1) ∨ s.devState = 10 then (s, some 0x19)
    else (s, none)

/-- A command's status: the PF's in `SEC_CMD_STAT`, the BMC's in the answer to its message. -/
def State.secStatus (s : State) (src : CmdSrc) (op status : Nat) : State :=
  match src with
  | .pf => s.setRegN (rSec 0x21) (status + 256 * op)
  | .bmc _ => s.send (.mctp 0x7E (natLe 1 status ++ natLe 1 op))

/-- The record in `SEC_CMD_BUF`. -/
def State.mailbox (s : State) : Bytes := ((List.range 16).map (fun k => natLe 4 (s.regN (rSec (0x10 + k))))).flatten

/-- A write of 1 to `SEC_CMD_GO` (R530): checks 1 to 10; a record that passes stays in its check stage for the unit that carries it out. -/
def State.secGo (s : State) : State :=
  let r := s.mailbox
  let op := fieldN r 0 1
  match s.secCheck 0 r with
  | (s, some st) => s.secStatus .pf op st
  | (s, none) => { s with secRec := some r }.secStatus .pf op 1

/-- The record of a command that has passed checks 1 to 10, taken out of its check stage: the PF's as `SEC_CMD_GO` left it, the BMC's as it
arrives. None, with the state as it then is, where there is no such record of this `OP`. -/
def State.takeCmd (s : State) (src : CmdSrc) (op : Nat) : State × Option Bytes :=
  match src with
  | .pf =>
    match s.secRec with
    | some r => if fieldN r 0 1 = op then ({ s with secRec := none }, some r) else (s, none)
    | none => (s, none)
  | .bmc r =>
    if r.length ≠ 64 then (s, none)
    else
      match s.secCheck 1 r with
      | (s', some st) => (s'.secStatus src (fieldN r 0 1) st, none)
      | (s', none) => if fieldN r 0 1 = op then (s', some r) else (s, none)

/-! ## The commands -/

/-- `PARTITION_RECONFIGURATION` (R212, R215, R333, R432; check 11): `desc` is the load descriptor as read from host memory. An `IMAGE_ADDR`
of 0 asks for an unload, of 1 for a partition reset. -/
def execPartitionReconfiguration (src : CmdSrc) (desc : Bytes) (s : State) : Res :=
  match s.takeCmd src 3 with
  | (s, none) => .next s
  | (s, some r) =>
    if desc.length ≠ 32 ∨ (Sha.sha256 desc).take 8 ≠ (r.drop 32).take 8 then .next (s.secStatus src 3 0x1A)
    else
      let s := s.secStatus src 3 2
      let addr := fieldN desc 0 8
      let p := fieldN desc 12 1
      if 8 ≤ p ∨ zeros desc 15 32 = false ∨ (2 ≤ addr ∧ addr % 4096 ≠ 0) then .fault (.unpredictable .record)
      else if addr = 0 then
        .next (s.askPart p 1)
      else if addr = 1 then
        .next (s.askPart p 2)
      else .next (s.startLoad addr (fieldN desc 8 4) p (fieldN desc 13 1) (fieldN desc 14 1))

/-- `ENTER_DEBUG_MODE` (R533): each partition of the mask at its next beat boundary, one without a layout at once. -/
def execEnterDebugMode (src : CmdSrc) (s : State) : Res :=
  match s.takeCmd src 4 with
  | (s, none) => .next s
  | (s, some r) =>
    if s.fld (rSec 4) 1 1 = 0 then .next (s.secStatus src 4 0x1B)
    else
      let s := s.secStatus src 4 2
      let mask := fieldN r 24 1
      .next (((List.range 8).filter (fun p => mask / 2 ^ p % 2 == 1)).foldl (fun s p =>
        let q := s.part p
        if q.debug then s.updPart p (fun q => { q with debugAsk := none })
        else if q.loaded then s.updPart p (fun q => { q with debugAsk := some true })
        else s.enterDebug p) s)

/-- `DEBUG_EXIT` (R534). -/
def execDebugExit (part : Nat) (s : State) : Res :=
  let q := s.part part
  if q.debug = false then .next (s.updPart part (fun q => { q with debugAsk := none }))
  else if q.loaded = false ∨ q.halted ∨ q.openItem 7 then .next (s.leaveDebug part)
  else .next (s.updPart part (fun q => { q with debugAsk := some false }))

/-- `RAISE_POWER_LIMIT` (R452): values above 25,000 act as 25,000; the command never lowers the limit. -/
def execRaisePowerLimit (src : CmdSrc) (s : State) : Res :=
  match s.takeCmd src 2 with
  | (s, none) => .next s
  | (s, some r) =>
    let s := s.secStatus src 2 2
    let w := Nat.min (fieldN r 24 4) 25000
    .next (if s.fld (rPwr 0) 14 0 < w then s.setFld (rPwr 0) 14 0 w else s)

/-- `FIRMWARE_UPDATE` (R506, R507): the update begins, or a PLDM window of 60 s opens. -/
def execFirmwareUpdate (src : CmdSrc) (s : State) : Res :=
  match s.takeCmd src 1 with
  | (s, none) => .next s
  | (s, some r) =>
    let s := s.secStatus src 1 2
    let fl := fieldN r 2 1
    let pldm := fl / 2 % 2 == 1
    let s := { s with fwu := some { len := fieldN r 32 4, digest8 := (r.drop 36).take 8, floor := fl % 2 == 1, pldm := pldm, at_ := s.now
                                    window := pldm } }
    .next (if pldm then s else s.setRegN (rSys 0x58) (1 + 8 * (1 - s.fld (rSys 5) 0 0)))

/-- A firmware update ends: state 4 done or 5 failed in `SYS_FWU_STAT`, for the slot not selected. -/
def State.endUpdate (s : State) (ok : Bool) : State :=
  let pldm := s.fwu.any (·.pldm)
  let s := { s with fwu := none }.setRegN (rSys 0x58) ((if ok then 4 else 5) + 8 * (1 - s.fld (rSys 5) 0 0))
  if pldm then s.send (.mctp 5 [if ok then 0 else 1]) else s

/-- `FIRMWARE_UPDATE_DONE` (R506, R507, R517): the slot is written and read back; signature, floor and authorised digest are checked; with
`FLOOR` the floor rises last. -/
def execFirmwareUpdateDone (img : ImageFacts) (s : State) : Res :=
  match s.fwu with
  | none => .next s
  | some u =>
    if u.window ∨ s.secUp = false ∨ (u.pldm ∧ u.data.length < u.len) then .next s
    else
      let d := if u.pldm then (Sha.sha256 u.data).take 8 else img.digest8
      let ok := img.readOk && img.sigOk && decide (s.regN (rSec 5) ≤ img.version) && d == u.digest8
      let s' := s.endUpdate ok
      .next (if ok && u.floor && decide (s.regN (rSec 5) < img.version) then (s'.setRegN (rSec 5) img.version).secEvent 6 img.version else s')

/-- `KEY_ROTATION` (R523): the new owner region is checked under R521 and takes effect at once. -/
def execKeyRotation (src : CmdSrc) (img : ImageFacts) (s : State) : Res :=
  match s.takeCmd src 5 with
  | (s, none) => .next s
  | (s, some _) =>
    match img.owner with
    | .valid policy _ key _ =>
      if img.readOk && img.identOk then
        let s := (s.setFld (rSec 0) 0 0 1).setRegN (rSec 4) (policy % 16)
        .next ({ s with cmdKey := key }.secEvent 5 0 |>.secStatus src 5 2)
      else .next (s.secStatus src 5 0x1C)
    | _ => .next (s.secStatus src 5 0x1C)

/-- `SPARE_POLICY_OVERRIDE` (R74, R488). -/
def execSparePolicyOverride (src : CmdSrc) (s : State) : Res :=
  match s.takeCmd src 6 with
  | (s, none) => .next s
  | (s, some r) =>
    let s := s.secStatus src 6 2
    let v := fieldN r 24 1
    let mask := fieldN r 26 10
    let s := if v / 16 % 2 = 1 then s.setFld (rSys 0x40) 0 0 (v % 2) else s
    let s := if v / 32 % 2 = 1 then s.setFld (rSys 0x40) 1 1 (v / 2 % 2) else s
    .next (if v / 64 % 2 = 1 then
      ((List.range 80).filter (fun i => mask / 2 ^ i % 2 == 1)).foldl (fun s i => s.setFld (rIsle i 0x802) 2 2 (v / 4 % 2)) s
      else s)

/-- `LOCKOUT_EXPIRY` (R532). -/
def execLockoutExpiry (s : State) : Res :=
  if s.fld (rSec 0) 1 1 = 1 ∧ s.lockAt + 60000000000 ≤ s.now then .next (s.setFld (rSec 0) 1 1 0) else .next s

end Sys2Proof.Machine
end

