-- ==== Sys2Proof/Machine/HostIf.lean ====
section
/-!
DEFINITION. The host attachment (13_host_attachment.md R371 to R392; 20_security.md R535; 15 R416): ring controls, the cabinet window, the
debug window, interface versions, function level resets, power states.
-/
namespace Sys2Proof.Machine

/-! ## Rings (R381, R383) -/

/-- `DMA_READ_FAILURE` (R383). -/
def execDmaReadFailure (fn : Nat) (kind : RingKind) (q : Nat) (s : State) : Res :=
  if fn ≤ 8 ∧ s.fld (ringCtl fn kind q) 16 16 = 1 ∧ s.ringErr fn kind q = false then .next (s.stopRing fn kind q) else .next s

/-- A stopped ring's error is cleared, and its index pair is to be read at the next poll (R381, R383). -/
def State.enableRing (s : State) (fn : Nat) (kind : RingKind) (q : Nat) : State :=
  let k := ringCode kind
  let s := s.setRing fn k q { s.ring fn k q with ready := false }
  match kind with
  | .sq => s.setFld (sqReg fn q 5) 17 16 0
  | .cq => s.setFld (cqReg fn q 6) 17 17 0
  | .ev => s.setFld (rTel 4) 31 31 0

/-- `RING_CONTROL_WRITE` (R381, R391 item 4): `ENTRIES` takes effect only while `ENABLE` reads 0; a ring of 0 or 1 slots, or of a VF without an
accepted version, is not enabled. -/
def execRingControlWrite (fn : Nat) (kind : RingKind) (q : Nat) (v : Word) (s : State) : Res :=
  let r := ringCtl fn kind q
  let own := match kind with
    | .ev => decide (fn = 0 ∧ q = 0) && s.devState != 0 && s.devState != 10
    | _ => decide (fn ≤ 8) && decide (q < ringsOf fn) && s.blocksOpen && (fn == 0 || !s.vfDark (.vf fn))
  if own = false then .next s
  else
    let old := s.regN r
    let was := bits old 16 16
    let entries := if was = 0 then bits v.toNat 15 0 else bits old 15 0
    let ok := decide (2 ≤ entries) && (fn == 0 || s.fld (rHost fn 1) 1 0 == 1)
    let now := if bits v.toNat 16 16 = 1 ∧ (was = 1 ∨ ok) then 1 else 0
    let rest := (regAcc r).rw / 2 ^ 17 * 2 ^ 17
    let top := (v.toNat &&& rest) + (old - (old &&& (rest + 0x1FFFF)))
    let s := s.setRegN r (entries + 65536 * now + top)
    .next (if was = 0 ∧ now = 1 then s.enableRing fn kind q else s)

/-! ## The cabinet window (R377 to R379) -/

/-- The wafer address of a BAR2 offset of a function: none where a VF owns no partition or the isle is outside it. -/
def State.b2Addr (s : State) (fn off : Nat) : Option (CoreId × Nat) :=
  let a := s.fld (rHost fn 6) 7 0 * 2 ^ 36 + off
  let c := a / 2 ^ 29 % 2 ^ 15
  if fn = 0 then some (c, a % 2 ^ 29)
  else
    match s.vfPart fn with
    | none => none
    | some p =>
      let q := s.part p
      let c := c + 256 * s.originIdx q
      if q.loaded && q.covers s.gridCols (cIsle c) then some (c, a % 2 ^ 29) else none

/-- A refused BAR2 access (R379). -/
def State.b2Refused (s : State) (fn len : Nat) (wr : Option Bytes) : State :=
  let s := s.satFld (rHost fn 5) 30 24 1
  if wr.isSome then s else s.send (.answer (if fn = 0 then .pf else .vf fn) (List.replicate len 0xFF))

/-- Does a byte of `n` from a cabinet offset lie in a version slot or a drawer map record of a core's layout (R315, R152)? -/
def State.protected_ (s : State) (c : CoreId) (off n : Nat) : Bool :=
  let r := s.coreRec c
  (decide (off < r.masterBase + 2 * r.masterLen) && decide (r.masterBase < off + n) && decide (r.masterLen ≠ 0)) ||
    r.asgs.any (fun a => decide (off < a.mapBase + 64 * a.stride * 8192) && decide (a.mapBase < off + n))

/-- `BAR2_ACCESS` (R371, R377 to R379): background claims of priority 5, line by line; a read is answered as they are served. -/
def execBar2Access (fn off len : Nat) (wr : Option Bytes) (s : State) : Res :=
  let n := match wr with
    | some bs => bs.length
    | none => len
  if s.linkUp = false ∨ s.devState = 0 then .next s
  else if fn ≠ 0 ∧ s.devState ≠ 7 ∧ s.devState ≠ 8 then
    .next (if wr.isSome then s else s.send (.answer (.vf fn) (List.replicate n 0xFF)))
  else
    match s.b2Addr fn off with
    | none => .next (s.b2Refused fn n wr)
    | some (c, o) =>
      if s.ideOk fn = false then .next (s.b2Refused fn n wr) else
      if 2 ^ 36 ≤ off ∨ s.coreOk c = false ∨ spaceSize spCabinet < o + n ∨ n = 0 then .fault (.unpredictable .address)
      else if s.isleState (s.physIsle (cIsle c)) ≠ 2 then .next (s.b2Refused fn n wr)
      else if wr.isSome ∧ s.protected_ c o n then .fault (.unpredictable .contract)
      else
        let rq : Requester := if fn = 0 then .pf else .vf fn
        let first := o / 64
        .next ((List.range ((o + n - 1) / 64 - first + 1)).foldl (fun s i =>
          let lo := Nat.max o (64 * (first + i))
          let hi := Nat.min (o + n) (64 * (first + i + 1))
          let k := match wr with
            | some bs => ClaimKind.write ((bs.drop (lo - o)).take (hi - lo))
            | none => ClaimKind.read (hi - lo) rq
          s.claim c { prio := 5, off := lo, kind := k }) s)

/-! ## The debug window (R535) -/

/-- May the DBG window reach a space of a core (R535, R182, R194)? -/
def State.dbgReach (s : State) (c : CoreId) (space : Nat) : Bool :=
  match s.partOf c with
  | none => decide (space < 5)
  | some p =>
    let q := s.part p
    q.debug && decide (space < 5) && (decide (space ≤ 2) || q.halted || q.openItem 7)

/-- `DBG_WINDOW_ACCESS` (R535): one word at `DBG_ADDR`, a class U access. A refused access of a core of a partition sets that partition's
`REFUSED`. -/
def execDbgWindowAccess (wr : Option Word) (s : State) : Res :=
  let a := s.reg64 (rDbg 0x10)
  let c := waCore a
  let space := waSpace a
  let off := waOff a
  if s.hears .pf = false ∨ s.blocksOpen = false then .next s
  else if s.coreOk c = false ∨ (5 ≤ space ∧ space ≠ 8) ∨ (space < 5 ∧ spaceSize space < off + 4) then .fault (.unpredictable .address)
  else if s.dbgReach c space then
    if space = spShelf ∧ s.retained c then
      let s := s.satFld (s.sreg c 0x892) 31 24 1
      .next (if wr.isSome then s else s.send (.answer .pf (List.replicate 4 0xFF)))
    else
      let act : UAct := match wr with
        | some v => .write (natLe 4 v.toNat)
        | none => .read 4 .pf
      .next (s.updCore c (fun k => { k with uq := k.uq ++ [{ src := .host, space := space, off := off, act := act, at_ := s.cyc }] }))
  else
    let s := match s.partOf c with
      | some p => s.orReg (rDbg p) 4
      | none => s
    .next (if wr.isSome then s else s.send (.answer .pf (List.replicate 4 0xFF)))

/-! ## Interface version (R391) -/

/-- `HOST_DRV_VER_WRITE` (R391): the PF's while Held, until a refusal; a VF's once the device is Ready. -/
def execHostDrvVerWrite (fn : Nat) (v : Word) (s : State) : Res :=
  let ok := decide (s.regN (rHost 0 2) ≤ v.toNat) && decide (v.toNat ≤ s.regN (rHost 0 3))
  let s' := (s.setReg (rHost fn 0) v).setRegN (rHost fn 1) (if ok then 1 else 2)
  if fn = 0 then
    if s.devState ≠ 6 ∨ s.fld (rHost 0 1) 1 0 = 2 then .next s
    else .next (if ok then s'.enter 7 else s')
  else if fn ≤ 8 ∧ (s.devState = 7 ∨ s.devState = 8) then .next s'
  else .next s

/-! ## Function level resets (R388, R389, Table 13-5) -/

/-- Is a register one of a function's HOST page that an FLR clears? `HOST_IF_RANGE`, `HOST_STAT` and the VF ownership stay. -/
def flrReg (fn r : Nat) : Bool :=
  let b := rHost fn 0
  decide (b ≤ r) && decide (r < b + 0x4000) &&
    (let w := r - b
     w != 2 && w != 3 && w != 5 && !(fn == 0 && decide (0x400 ≤ w) && decide (w < 0x420)))

/-- The host-facing state of a function under FLR: registers, rings, held records, fetched records, power state. -/
def State.flrFn (s : State) (fn : Nat) : State :=
  let freed := ((s.rings.filter (fun r => r.1 / 64 == fn)).map (fun r => r.2.held.filterMap (fun h => if h.2.1 then h.1 else none))).flatten
  let s := freed.foldl (fun s e => s.reqState e 0) s
  { s with regs := s.regs.filter (fun r => !flrReg fn r.1), rings := s.rings.filter (fun r => r.1 / 64 != fn)
           subq := s.subq.filter (fun x => x.1 != fn), d3 := s.d3.filter (· != fn)
           sel := s.sel.filter (fun x => x.1 != ownKey (if fn = 0 then .pf else .vf fn) (rHost fn 7)) }

/-- Every entry of a function ends under R359 without records; parked entries are freed, their areas not written. -/
def State.flrReqs (s : State) (fn : Nat) : State :=
  ((s.reqs.filter (fun r => decide (r.2.state ≠ 0) && r.2.func == fn)).map Prod.fst).foldl (fun s e =>
    (s.updReq e (fun r => { r with silent := true })).cancelReq e 3 false) s

/-- Loads and stagings of a partition that read host memory end (Table 13-5). -/
def State.flrPart (s : State) (p : Nat) : State :=
  let s := match s.loadOf p with
    | some l => if l.phase ≤ 2 then s.failLoad l 0x1D 0xFFFF else s
    | none => s
  if (s.part p).staging.isSome then
    (s.updPart p (fun q => { q with staging := none, other := 0, otag := 0 })).wswEnd p 1 0x29 0
  else s

/-- `VF_FLR` (R388). -/
def execVfFlr (n : Nat) (s : State) : Res :=
  if n = 0 ∨ 8 < n then .next s
  else
    let s := (s.flrReqs n).flrFn n
    let s := if (s.txSlot 0).owner = some (.vf n) then s.rollTx 0 7 else s
    match s.vfPart n with
    | some p => .next (s.flrPart p)
    | none => .next s

/-- An FLR of the PF, and a hot reset or link-down (R388): every function, every entry, every load and staging, every gate and migration (R413);
the event ring with them. -/
def State.pfFlr (s : State) : State :=
  let s := (List.range 9).foldl (fun (s : State) fn => (s.flrReqs fn).flrFn fn) s
  let s := [rTel 0, rTel 1, rTel 2, rTel 3, rTel 4, rTel 5].foldl (fun s r => s.setReg r (regReset r)) s
  let s := s.rollTx 0 7
  let s := (List.range 8).foldl State.flrPart s
  let s := s.gatesOff.migEnd 8
  if s.devState = 7 ∨ s.devState = 8 then s.enter 6 else s

/-- `PF_FLR` (R388). -/
def execPfFlr (s : State) : Res := .next s.pfFlr

/-- `LINK_DOWN` (R388): treated as an FLR of the PF. -/
def execLinkDown (s : State) : Res := .next { s.pfFlr with linkUp := false }

/-- `LINK_TRAINED` (R416): not before the auxiliary domain has been up for 50 ms. -/
def execLinkTrained (s : State) : Res :=
  if s.devState = 0 ∨ s.devState = 1 ∧ s.cyc < s.startCyc + 60000000 then .next s
  else .next { s.setFld (rSys 4) 2 2 1 with linkUp := true }

/-! ## Power states (R390) -/

/-- `D3HOT_ENTRY` (R390). -/
def execD3hotEntry (fn : Nat) (s : State) : Res :=
  if 8 < fn ∨ s.inD3 fn then .next s else .next { s with d3 := s.d3 ++ [fn] }

/-- `D0_RETURN` (R390). -/
def execD0Return (fn : Nat) (s : State) : Res := .next { s with d3 := s.d3.filter (· != fn) }

end Sys2Proof.Machine
end

