-- ==== Sys2Proof/Machine/Fabric.lean ====
section
/-!
DEFINITION. The causeway fabric's links, numbers, routes and streams (14_causeway_fabric.md R393 to R405, R414). Kind data that the spec does not
lay out have the model's own layout (assumption 44).
-/
namespace Sys2Proof.Machine

/-! ## Ports (R393 to R398) -/

def rPort (n : Nat) : Nat := rCwy (0x10 + n)

/-- A warning record of lane failures, the first in each 1 ms only (R414). -/
def State.laneWarning (s : State) (n : Nat) : State :=
  match s.fabric.laneWarn with
  | some t => if s.now < t + 1000000 then s else { s with fabric := { s.fabric with laneWarn := some s.now } }.cwyLog 2 (0x10 + n) n 0
  | none => { s with fabric := { s.fabric with laneWarn := some s.now } }.cwyLog 2 (0x10 + n) n 0

/-- A transit drop counted, with a warning record, the first in each 1 ms only (R404, R414). -/
def State.transitDrop (s : State) (dest : Nat) : State :=
  let s := s.satFld (rCwy 0x20) 15 0 1
  match s.fabric.dropWarn with
  | some t => if s.now < t + 1000000 then s else { s with fabric := { s.fabric with dropWarn := some s.now } }.cwyLog 2 0x20 dest 0
  | none => { s with fabric := { s.fabric with dropWarn := some s.now } }.cwyLog 2 0x20 dest 0

/-- A packet that stays on one link. -/
def linkPacket (kind : Nat) (kd : Bytes) (payload : List Bytes) : Packet :=
  { fvc := 3, kind := kind, hops := 0, lseq := 0, lack := 0, ackv := false, nak := false, dest := 0, src := 0, flow := 0, eseq := 0
    credit := [0, 0, 0, 0], kd := kd, payload := payload }

/-- The kind data of a hello (R399): identity, port, number or none, `LOWEST`, distance. -/
def helloBytes (m : HelloMsg) : Bytes :=
  natLe 8 m.ident ++ natLe 1 m.port ++ natLe 2 (m.num.getD 0xFFFF) ++ natLe 8 m.lowest ++ natLe 1 m.dist

/-- A hello read from kind data. -/
def helloOf (b : Bytes) : HelloMsg :=
  let n (at_ k : Nat) : Nat := leNat ((b.drop at_).take k)
  { ident := n 0 8, port := n 8 1, num := if n 9 2 = 0xFFFF then none else some (n 9 2), lowest := n 11 8, dist := n 19 1 }

/-- A hello sent out of a port. -/
def State.sendHello (s : State) (n : Nat) : State :=
  let f := s.fabric
  let lowest := if f.dist = 0 then f.ident else f.lowest
  s.portSend n (linkPacket 1 (helloBytes { ident := f.ident, port := n, num := s.nodeNum, lowest := lowest, dist := f.dist }) [])

/-- The ports that are up. -/
def State.upPorts (s : State) : List Nat := (List.range 16).filter (fun n => s.width n != 0)

/-! ## Routes (R403) -/

/-- The metric advertised to a port: poisoned where the route leaves through it. -/
def State.advert (s : State) (n dest : Nat) : Nat := if (s.hopPorts dest).contains n then 63 else s.metric dest

/-- One quarter of the vector sent out of a port. -/
def State.sendQuarter (s : State) (n q : Nat) : State :=
  let bs := (List.range 1024).map (fun i => BitVec.ofNat 8 (s.advert n (q * 1024 + i)))
  s.portSend n (linkPacket 2 (natLe 1 q) ((List.range 16).map (fun l => (bs.drop (64 * l)).take 64)))

/-- Changed entries are sent at once, in the quarters that hold them, to every port that is up. -/
def State.sendChanged (s : State) (old : State) : State :=
  let qs := (List.range 4).filter (fun q => (List.range 1024).any (fun i => s.metric (q * 1024 + i) != old.metric (q * 1024 + i)))
  qs.foldl (fun s q => s.upPorts.foldl (fun s n => s.sendQuarter n q) s) s

/-- What a port's neighbour advertised is void: the port is down or the neighbour is gone. -/
def State.forgetPort (s : State) (n : Nat) : State :=
  { s with fabric := { s.fabric with vecs := s.fabric.vecs.filter (fun v => v.1 / 4096 != n) } }

/-- The assigner notes which numbers' holders have disappeared, and since when (R400 item 2). -/
def State.markGone (s : State) : State :=
  let upd (r : NumRec) : NumRec :=
    if r.ident = s.fabric.ident ∨ s.metric r.num < 63 then { r with gone := none } else { r with gone := some (r.gone.getD s.now) }
  { s with fabric := { s.fabric with nums := s.fabric.nums.map upd } }

/-! ## Streams that fail (R402 item 4) -/

/-- The owners of what a stream carried end failed. -/
def State.failOwners (s : State) (dest fvc : Nat) : State :=
  let busy := (List.range 64).filter (fun g =>
    (s.gate g).busy && devOf (s.reg64 (rGate g 2)) == dest && (if fvc = 0 then !(s.gate g).adding else (s.gate g).adding))
  let s := if fvc ≤ 1 then busy.foldl (fun s g => s.gateEnd g 4) s else s
  match s.fabric.mig with
  | some (_, d) => if fvc = 2 ∧ d = dest then s.migEnd 8 else s
  | none => s

/-- A stream fails (R402 item 4): its packets are discarded, it restarts at a new base, it is counted and logged. -/
def State.failStream (s : State) (dest fvc : Nat) : State :=
  let key := dest * 4 + fvc
  let st : Stream := fget {} s.fabric.streams key
  let st' : Stream := { next := (st.next + 64) % 2 ^ 32 }
  let s := { s with fabric := { s.fabric with streams := fset {} s.fabric.streams key st' } }
  ((s.satFld (rCwy 0x21) 23 16 1).cwyLog 1 0x21 dest fvc).failOwners dest fvc

/-! ## Numbers (R399 to R401) -/

/-- The device takes a number, or changes the one it has (R401): a change fails every stream to or from it and is counted and logged. -/
def State.takeNumber (s : State) (n : Nat) : State :=
  if s.nodeNum = some n then s
  else
    let old := s
    let change := s.nodeNum.isSome
    let s := (s.setFld (rCwy 0) 11 0 n).setFld (rCwy 0) 12 12 1
    let s :=
      if change then
        let s := (s.fabric.streams.map Prod.fst).foldl (fun (s : State) k => s.failStream (k / 4) (k % 4)) s
        let s := { s with fabric := { s.fabric with rxs := [] } }
        (s.satFld (rCwy 0x21) 31 24 1).cwyLog 1 0 n 0
      else s
    s.sendChanged old

/-- The device loses its number (R401 item 2). -/
def State.loseNumber (s : State) : State :=
  let s := (s.fabric.streams.map Prod.fst).foldl (fun (s : State) k => s.failStream (k / 4) (k % 4)) s
  let s := { s with fabric := { s.fabric with rxs := [] } }.setFld (rCwy 0) 12 0 0
  (s.satFld (rCwy 0x21) 31 24 1).cwyLog 1 0 0 0

/-- The number that the assigner grants to an identity (R400 item 1): the preferred one if no other identity has it, else the lowest free. -/
def State.chooseNumber (s : State) (ident pref : Nat) : Option Nat :=
  let taken (n : Nat) : Bool := s.fabric.nums.any (fun r => r.num == n && r.ident != ident)
  if taken pref = false then some pref else (List.range 4096).find? (fun n => !taken n)

/-- A grant recorded by the assigner. -/
def State.record (s : State) (ident num : Nat) : State :=
  { s with fabric := { s.fabric with nums := s.fabric.nums.filter (fun r => r.ident != ident) ++ [{ num := num, ident := ident }] } }

/-- A number request sent towards the assigner (R400): it goes out of the parent port. -/
def State.askNumber (s : State) (ident pref : Nat) : State :=
  match s.fabric.parent with
  | some n => s.portSend n { linkPacket 3 (natLe 8 ident ++ natLe 2 pref) [] with fvc := 3 }
  | none => s

/-- A grant sent out of a port. -/
def State.sendGrant (s : State) (n ident : Nat) (num : Option Nat) : State :=
  s.portSend n (linkPacket 4 (natLe 8 ident ++ natLe 2 (num.getD 0xFFFF)) [])

/-- Is this device the assigner (Table 14-3)? -/
def State.isAssigner (s : State) : Bool := s.fld (rCwy 0) 13 13 == 1

/-- `LOWEST`, its distance and the parent port from what the neighbours advertise (R399). A numbered device registers with a new assigner (R401
item 1). -/
def State.elect (s : State) : State :=
  let f := s.fabric
  let nbrs := (s.upPorts.filterMap (fun n => (s.port n).nbr.map (fun m => (n, m)))).filter (fun x => decide (x.2.dist + 1 < 64))
  let lowest := nbrs.foldl (fun m x => Nat.min m x.2.lowest) f.ident
  let best := (nbrs.filter (fun x => x.2.lowest == lowest)).foldl (fun (b : Option (Nat × Nat)) x => match b with
    | some (d, p) => if x.2.dist + 1 < d then some (x.2.dist + 1, x.1) else some (d, p)
    | none => some (x.2.dist + 1, x.1)) none
  let own := decide (lowest = f.ident)
  let dist := if own then 0 else (best.map Prod.fst).getD 0
  let parent := if own then none else best.map Prod.snd
  let changed := decide (lowest ≠ f.lowest)
  let s := { s with fabric := { f with lowest := lowest, dist := dist, parent := parent, selfAdv := if own then f.selfAdv else 0 } }
  let s := (s.setFld (rCwy 0) 19 14 dist).setFld (rCwy 0) 13 13 (if own then b2n s.isAssigner else 0)
  match changed, parent, s.nodeNum with
  | true, some _, some n => s.askNumber f.ident n
  | _, _, _ => s

/-- Every causeway port goes down (R395, R397): what it holds is discarded. -/
def State.portsDown (s : State) : State :=
  let s := (List.range 16).foldl (fun (s : State) n => (s.setFld (rCwy (0x10 + n)) 2 0 0).setFld (rCwy (0x10 + n)) 7 7 0) s
  { s with fabric := { s.fabric with ports := [], vecs := [] } }

/-- Every port that is up goes down (R428 item 3, R471 item 2): error records, no neighbour is left. -/
def State.portsLost (s : State) : State :=
  ((s.upPorts.foldl (fun (s : State) n => s.cwyLog 1 (0x10 + n) n 0) s).portsDown).elect.markGone

/-- A hello arrives at a port (R399, R401 item 2). -/
def State.helloIn (s : State) (n : Nat) (m : HelloMsg) : State :=
  let s := s.setPort n { s.port n with nbr := some m, nbrAt := s.now }
  let s := if m.num.isSome ∧ m.num = s.nodeNum ∧ m.ident < s.fabric.ident then s.loseNumber else s
  s.elect

/-- `HELLO` (R399). -/
def execHello (port : Nat) (msg : HelloMsg) (s : State) : Res :=
  if 16 ≤ port ∨ s.width port = 0 then .next s else .next (s.helloIn port msg)

/-- `HELLO_TIMER` (R399, R400): a hello out of every port; after three in which its own identity was `LOWEST` the device is the assigner and
numbers itself; a device without a number asks for one. -/
def execHelloTimer (s : State) : Res :=
  if s.upPorts = [] then .next s
  else
    let f := s.fabric
    let own := f.dist == 0 && f.parent.isNone
    let n := if own then f.selfAdv + 1 else 0
    let s := { s with fabric := { f with selfAdv := n, lowest := if own then f.ident else f.lowest } }
    let s := s.upPorts.foldl (fun s n => s.sendHello n) s
    let s := if own && decide (3 ≤ n) then s.setFld (rCwy 0) 13 13 1 else s
    let pref := s.fld (rCwy 1) 11 0
    if s.nodeNum.isSome then
      (match s.nodeNum with
       | some k => .next (if s.isAssigner && s.fabric.nums.all (fun r => r.ident != f.ident) then s.record f.ident k else s)
       | none => .next s)
    else if s.isAssigner then
      (match s.chooseNumber f.ident pref with
       | some k => .next ((s.record f.ident k).takeNumber k)
       | none => .next (s.cwyLog 1 0 0 0))
    else .next (s.askNumber f.ident pref)

/-- `NEIGHBOUR_TIMEOUT` (R399). -/
def execNeighbourTimeout (port : Nat) (s : State) : Res :=
  let x := s.port port
  if x.nbr.isNone ∨ s.now < x.nbrAt + 300000 then .next s
  else
    let old := s
    let s := (s.setPort port { x with nbr := none }).forgetPort port
    .next ((s.elect.sendChanged old).markGone)

/-- A number request arrives (R400): the assigner grants or refuses; another device passes it on and keeps where the grant must return. -/
def State.requestIn (s : State) (n ident pref : Nat) : State :=
  if s.isAssigner then
    match s.chooseNumber ident pref with
    | some k => (s.record ident k).sendGrant n ident (some k)
    | none => s.sendGrant n ident none
  else { s with fabric := { s.fabric with back := fset 0 s.fabric.back ident (n + 1) } }.askNumber ident pref

/-- `NUMBER_REQUEST` (R400). -/
def execNumberRequest (port ident pref : Nat) (s : State) : Res :=
  if 16 ≤ port ∨ s.width port = 0 ∨ 4096 ≤ pref then .next s else .next (s.requestIn port ident pref)

/-- A grant arrives (R400): the device's own, or one to pass back. -/
def State.grantIn (s : State) (ident : Nat) (num : Option Nat) : State :=
  if ident = s.fabric.ident then
    match num with
    | some n => if n < 4096 then s.takeNumber n else s
    | none => s.cwyLog 1 0 0 0
  else
    match fget 0 s.fabric.back ident with
    | 0 => s
    | p + 1 => { s with fabric := { s.fabric with back := fset 0 s.fabric.back ident 0 } }.sendGrant p ident num

/-- `NUMBER_GRANT` (R400). -/
def execNumberGrant (ident : Nat) (num : Option Nat) (s : State) : Res := .next (s.grantIn ident num)

/-- `NUMBER_HOLD_EXPIRY` (R400 item 2): 10 s after its holder disappeared. -/
def execNumberHoldExpiry (num : Nat) (s : State) : Res :=
  let old (r : NumRec) : Bool := r.num == num && (match r.gone with
    | some t => decide (t + 10000000000 ≤ s.now)
    | none => false)
  if s.isAssigner then .next { s with fabric := { s.fabric with nums := s.fabric.nums.filter (fun r => !old r) } } else .next s

/-! ## Route vectors (R403) -/

/-- A quarter of a neighbour's vector arrives. -/
def State.vectorIn (s : State) (n q : Nat) (entries : Bytes) : State :=
  let old := s
  let put (v : FMap Nat) (i : Nat) : FMap Nat :=
    let m := leNat ((entries.drop i).take 1)
    fset 0 v (n * 4096 + q * 1024 + i) (if 63 ≤ m then 0 else m + 1)
  let s := { s with fabric := { s.fabric with vecs := (List.range 1024).foldl put s.fabric.vecs } }
  (s.sendChanged old).markGone

/-- `ROUTE_VECTOR` (R403). -/
def execRouteVector (port quarter : Nat) (entries : Bytes) (s : State) : Res :=
  if 16 ≤ port ∨ s.width port = 0 ∨ 4 ≤ quarter ∨ entries.length ≠ 1024 then .next s else .next (s.vectorIn port quarter entries)

/-- `ROUTE_VECTOR_TIMER` (R403 item 2). -/
def execRouteVectorTimer (s : State) : Res :=
  .next (s.upPorts.foldl (fun (s : State) n => (List.range 4).foldl (fun (s : State) q => s.sendQuarter n q) s) s)

/-! ## Lanes (R394) -/

/-- A port retrains: it carries nothing, its replay buffer is kept. -/
def State.retrain (s : State) (n : Nat) : State := (s.setFld (rPort n) 7 7 1).satFld (rPort n) 15 8 1

/-- `LANE_FAILURE` (R394): `bad` is the mask of the lanes that failed at either end; a port that trains already goes on training. -/
def execLaneFailure (port : Nat) (bad : Nat) (s : State) : Res :=
  if 16 ≤ port ∨ bad % 16 = 0 then .next s
  else if s.width port = 0 then (if s.fld (rPort port) 7 7 = 1 then .next (s.orReg (rPort port) (bad % 16 * 8)) else .next s)
  else .next (((s.orReg (rPort port) (bad % 16 * 8)).retrain port).laneWarning port)

/-- The packets of a port's replay buffer go out again. -/
def State.resend (s : State) (n : Nat) : State := (s.port n).replay.foldl (fun (s : State) p => s.send (.packet n p)) s

/-- `PORT_RETRAINED` (R394, R397, R399): the width that the good lanes allow; a port without two of them goes down, what it held is discarded
and an error is logged (R414). -/
def execPortRetrained (port : Nat) (s : State) : Res :=
  let r := rPort port
  if 16 ≤ port ∨ s.fld r 7 7 = 0 then .next s
  else
    let bad := s.fld r 6 3
    let w := if bad = 0 then 4 else if bad % 4 = 0 then 2 else if bad / 4 = 0 then 2 else 0
    let s := ((s.setFld r 7 7 0).setFld r 2 0 w).setFld (rSys 4) 3 3 1
    let old := s
    if w = 0 then
      let s := (s.setPort port {}).forgetPort port
      .next (((s.elect.sendChanged old).markGone).cwyLog 1 (0x10 + port) port 0)
    else
      let s := (s.resend port).sendHello port
      .next ((s.pump port ((s.port port).txq.length + 1)).sendChanged old)

/-! ## The link (R397) -/

/-- The sender replays from the packet after `lack`; a packet replayed 16 times makes the port retrain. -/
def State.replayFrom (s : State) (n lack : Nat) : State :=
  let x := s.port n
  let acked (p : Packet) : Bool := decide ((lack + 4096 - p.lseq) % 4096 < 2048)
  let left := x.replay.filter (fun p => !acked p)
  let tries := if left.length < x.replay.length then 1 else x.tries + 1
  let s := s.setPort n { x with replay := left, tries := if 16 ≤ tries then 0 else tries }
  let s := s.satFld (rPort n) 31 16 left.length
  if left = [] then s else if 16 ≤ tries then s.retrain n else s.resend n

/-- `LINK_NAK` (R397 item 3). -/
def execLinkNak (port lack : Nat) (s : State) : Res :=
  if 16 ≤ port ∨ s.width port = 0 then .next s else .next (s.replayFrom port (lack % 4096))

/-- What the header of a packet received in order returns: acknowledgements and credit (R397, R398). -/
def State.linkAck (s : State) (n : Nat) (p : Packet) : State :=
  let x := s.port n
  let acked (r : Packet) : Bool := p.ackv && decide ((p.lack + 4096 - r.lseq) % 4096 < 2048)
  let left := x.replay.filter (fun r => !acked r)
  let units := (x.units.zip p.credit).map (fun u => u.1 + u.2)
  s.setPort n { x with replay := left, tries := if left.length < x.replay.length then 0 else x.tries, units := units }

/-- A `NAK` sent: an idle packet that carries it. -/
def State.sendNak (s : State) (n : Nat) : State :=
  let x := s.port n
  s.send (.packet n { linkPacket 0 [] [] with lseq := x.lseq, lack := x.rx.getD 0xFFF, ackv := true, nak := true })

/-! ## End to end (R402) -/

/-- The packets of a stream delivered in order from those held. -/
def drainHeld : Nat → Nat → List Packet → List Packet × Nat × List Packet
  | 0, next, held => ([], next, held)
  | k + 1, next, held =>
    match held.find? (fun p => p.eseq == next) with
    | none => ([], next, held)
    | some p =>
      let (ds, n, h) := drainHeld k ((next + 1) % 2 ^ 32) (held.erase p)
      (p :: ds, n, h)

/-- An acknowledgement of a packet back to its source, out of sequence (kind data: `FVC`, `ESEQ`). -/
def State.sendAck (s : State) (p : Packet) : State :=
  match s.nodeNum with
  | none => s
  | some me => s.route { linkPacket 7 (natLe 1 p.fvc ++ natLe 4 p.eseq) [] with fvc := 1, dest := devAddr p.src, src := me }

/-- A packet of a stream arrives at its destination (R402 items 1 and 2): delivered in `ESEQ` order, duplicates dropped and acknowledged again
unless they still wait; an `ESEQ` 64 or more ahead begins a new base. -/
def State.streamIn (s : State) (p : Packet) : State :=
  let key := p.src * 4 + p.fvc
  let x : RxStream := fget {} s.fabric.rxs key
  let ahead := (p.eseq + 2 ^ 32 - x.next) % 2 ^ 32
  if 2 ^ 31 ≤ ahead then
    (if s.fabric.inbox.any (fun q => q.src == p.src && q.fvc == p.fvc && q.eseq == p.eseq) then s else s.sendAck p)
  else
    let next := if 64 ≤ ahead then p.eseq else x.next
    let held := (if 64 ≤ ahead then [] else x.held.filter (fun q => q.eseq != p.eseq)) ++ [p]
    let (ds, n, h) := drainHeld held.length next held
    let x' : RxStream := { next := n, held := h }
    { s with fabric := { s.fabric with rxs := fset {} s.fabric.rxs key x', inbox := s.fabric.inbox ++ ds } }

/-- What a packet's acknowledgement brings its owner (R406 items 3 and 4, R412): a gate's data all written, its addition made; a migration
landed. -/
def State.acked (s : State) (p : Packet) : State :=
  if p.kind = 5 then
    let x := s.gate p.flow
    if x.busy = false ∨ x.left = 0 then s
    else
      let s := s.setGate p.flow { x with left := x.left - 1, adding := x.left == 1 }
      if x.left = 1 then
        s.fabSend (devAddr (devOf p.dest)) 1 0x06 (0x8000 + p.flow)
          (natLe 1 0xFF ++ natLe 2 (s.fld (rGate p.flow 5) 31 16) ++ natLe 4 1 ++ natLe 6 (s.reg64 (rGate p.flow 2) % 2 ^ 48)) []
      else s
  else if p.kind = 6 ∧ 0x8000 ≤ p.flow then
    let g := p.flow - 0x8000
    let x := s.gate g
    if x.busy = false then s
    else
      let s := s.setGate g { fires := x.fires + 1 }
      let s := s.setFld (rGate g 6) 23 0 ((x.fires + 1) % 2 ^ 24)
      if s.fld (rGate g 6) 26 24 = 2 then s.setFld (rGate g 6) 26 24 1 else s
  else if p.kind = 0x0B then
    (if (fget {} s.fabric.streams (devOf p.dest * 4 + 2) : Stream).sent.any (fun x => x.pkt.kind == 0x0B) then s else s.migEnd 2)
  else s

/-- A packet of a stream acknowledged: it is retired and the stream goes on. -/
def State.retire (s : State) (dest fvc eseq : Nat) : State :=
  let key := dest * 4 + fvc
  let st : Stream := fget {} s.fabric.streams key
  match st.sent.find? (fun x => x.pkt.eseq == eseq) with
  | none => s
  | some x =>
    let st' : Stream := { st with sent := st.sent.filter (fun y => y.pkt.eseq != eseq) }
    let s := { s with fabric := { s.fabric with streams := fset {} s.fabric.streams key st' } }
    (s.streamPump key st'.wait.length).acked x.pkt

/-- `END_TO_END_ACKNOWLEDGEMENT` (R402). -/
def execEndToEndAcknowledgement (dest fvc eseq : Nat) (s : State) : Res := .next (s.retire dest fvc eseq)

/-- A refusal arrives (R405): the owner ends refused. On FV0 the flow is the gate's number; on FV1 0x8000 above a gate's; on FV2 the status of
Table 14-16. -/
def State.refusedBy (s : State) (dest fvc flow : Nat) : State :=
  if fvc = 0 then (if flow < 64 then s.gateEnd flow 3 else s)
  else if fvc = 1 then (if 0x8000 ≤ flow ∧ flow < 0x8040 then s.gateEnd (flow - 0x8000) 3 else s)
  else
    match s.fabric.mig with
    | some (_, d) => if fvc = 2 ∧ d = dest then s.migEnd (if 4 ≤ flow ∧ flow ≤ 7 then flow else 4) else s
    | none => s

/-- `REFUSAL` (R405). -/
def execRefusal (dest fvc flow : Nat) (s : State) : Res := .next (s.refusedBy dest fvc flow)

/-- `E2E_RETRANSMIT` (R402 items 3 and 4). -/
def execE2eRetransmit (dest fvc eseq : Nat) (s : State) : Res :=
  let key := dest * 4 + fvc
  let st : Stream := fget {} s.fabric.streams key
  match st.sent.find? (fun x => x.pkt.eseq == eseq) with
  | none => .next s
  | some x =>
    if s.now < x.at_ + 2000000 then .next s
    else if 8 ≤ x.tries then .next (s.failStream dest fvc)
    else
      let upd (y : Sent) : Sent := if y.pkt.eseq = eseq then { y with at_ := s.now, tries := y.tries + 1 } else y
      let st' : Stream := { st with sent := st.sent.map upd }
      let s := { s with fabric := { s.fabric with streams := fset {} s.fabric.streams key st' } }
      .next ((s.satFld (rCwy 0x20) 31 16 1).route x.pkt)

/-- `TRANSIT_CREDIT_TIMEOUT` (R404): the oldest transit packet that waits for credit at a port has waited more than 1 ms. -/
def execTransitCreditTimeout (port : Nat) (s : State) : Res :=
  let x := s.port port
  match x.txq.find? (fun p => some p.1.src != s.nodeNum && decide (2 < p.1.kind) && !s.canGo port p.1) with
  | some p =>
    if s.now ≤ p.2 + 1000000 then .next s
    else .next ((s.setPort port { x with txq := x.txq.erase p }).transitDrop (devOf p.1.dest))
  | none => .next s

/-! ## Receiving (R396, R397, R404) -/

/-- Are a packet's payload lines sound, and what they read as: `checks` gives the check bits as received. -/
def lineIn (line : Bytes) (check : Word) : Option Bytes :=
  let syn := checkBits (leNat line) ^^^ check.toNat
  match decodeSyn syn with
  | .clean => some line
  | .check _ => some line
  | .data i e => some (xorLine line (e * 2 ^ (4 * i)))
  | .bad => none

/-- A sound packet in order goes where it belongs. -/
def State.accept (s : State) (n : Nat) (p : Packet) : State :=
  let kd (at_ k : Nat) : Nat := leNat ((p.kd.drop at_).take k)
  if p.kind = 0 then s
  else if p.kind = 1 then s.helloIn n (helloOf p.kd)
  else if p.kind = 2 then (if kd 0 1 < 4 ∧ p.payload.length = 16 then s.vectorIn n (kd 0 1) p.payload.flatten else s)
  else if p.kind = 3 then s.requestIn n (kd 0 8) (kd 8 2 % 4096)
  else if p.kind = 4 then s.grantIn (kd 0 8) (if kd 8 2 = 0xFFFF then none else some (kd 8 2))
  else if some (devOf p.dest) = s.nodeNum then
    (if p.kind = 7 then s.retire p.src (kd 0 1) (kd 1 4)
     else if p.kind = 0x0D then s.refusedBy p.src (kd 0 1) (kd 1 2)
     else s.streamIn p)
  else if 62 ≤ p.hops then s.transitDrop (devOf p.dest)
  else s.route { p with hops := p.hops + 1 }

/-- `PACKET_RECEIVE` (R397): the header's CRC, then every line; a packet out of order or unsound is answered with a `NAK`, a duplicate is dropped.
A packet that asks for replay gets it. -/
def execPacketReceive (port : Nat) (pkt : Packet) (crc : Word) (checks : List Word) (s : State) : Res :=
  if 16 ≤ port ∨ s.width port = 0 then .next s
  else
    let lines := (pkt.payload.zip checks).map (fun x => lineIn x.1 x.2)
    let sound := crcBytes (packetHeader pkt) == crc.toNat && checks.length == pkt.payload.length && lines.all (·.isSome)
    if sound = false then .next (s.sendNak port)
    else
      let p : Packet := { pkt with payload := lines.filterMap id }
      let x := s.port port
      let due := match x.rx with
        | some r => (r + 1) % 4096
        | none => p.lseq
      let s := if p.nak then s.replayFrom port p.lack else s.linkAck port p
      if p.kind = 0 ∧ p.nak then .next s
      else if p.lseq = due then
        let x := s.port port
        let owed := if p.kind ≤ 2 then x.owed else x.owed.set p.fvc (x.owed.getD p.fvc 0 + packetSize p)
        let s := s.setPort port { x with rx := some p.lseq, owed := owed }
        let s := s.accept port p
        .next (s.pump port ((s.port port).txq.length + 1))
      else if (due + 4096 - p.lseq) % 4096 < 2048 then .next s
      else .next (s.sendNak port)

end Sys2Proof.Machine
end

