-- ==== Sys2Proof/Machine/Swap.lean ====
section
/-!
DEFINITION. Weight images and swaps (11_weight_images_and_partitions.md R313 to R336).
-/
namespace Sys2Proof.Machine

/-- Is a weight operation of a partition in progress? -/
def Part.busy (q : Part) : Bool := q.wop.isSome || q.staging.isSome

/-! ## Staging (R317 to R322) -/

/-- Header fields of a weight image (Table 11-1). -/
def wimgTag (b : Bytes) : Nat := fieldN b 12 4
def wimgLen (b : Bytes) : Nat := fieldN b 16 8
def wimgDir (b : Bytes) : Nat := fieldN b 24 8
def wimgDigest (b : Bytes) : Bytes := (b.drop 96).take 32

/-- Checks 2 to 4 of Table 11-3 on the header. -/
def State.wimgHeader (s : State) (q : Part) (b : Bytes) : Option (Nat × Nat) :=
  let reserved := [7, 10, 11] ++ (List.range 32).map (· + 64) ++ (List.range 128).map (· + 128)
  if fieldN b 0 4 ≠ 0x31574C51 then some (0x22, 0)
  else if fieldN b 4 2 ≠ 1 then some (0x22, 4)
  else
    match reserved.find? (fun i => fieldN b i 1 != 0) with
    | some i => some (0x22, i)
    | none =>
      if fieldN b 6 1 ≠ s.fld (rSys 0) 15 8 ∨ fieldN b 8 1 ≠ q.rows ∨ fieldN b 9 1 ≠ q.cols then some (0x24, 0)
      else if (b.drop 32).take 32 ≠ q.digest then some (0x24, 1)
      else none

/-- A weight record (Table 11-2): data offset, data length, array formats. -/
def wimgRec (b : Bytes) (i : Nat) : Nat × Nat × Nat :=
  let r := (b.drop (wimgDir b + 64 * i)).take 64
  (fieldN r 0 8, fieldN r 8 4, fieldN r 12 12)

/-- Check 5 of Table 11-3 on one record. -/
def recordOk (masterLen : Nat) (r : Nat × Nat × Nat) : Bool :=
  decide (r.2.1 ≤ masterLen) && decide (r.2.1 % 64 = 0) &&
    decide (((usedArrays r.2.2).map (fun n => match afmtOf r.2.2 n with | some f => imageBytes f | none => 0)).sum ≤ r.2.1)

/-- Bytes of a core's data that an image that has arrived so far holds, in whole lines; 0 before the core's record has arrived. -/
def wimgHave (b : Bytes) (i : Nat) : Nat :=
  if b.length < 256 ∨ b.length < wimgDir b + 64 * (i + 1) then 0
  else
    let r := wimgRec b i
    Nat.min r.2.1 (b.length - r.1) / 64 * 64

/-- A staging ends with a failure: the slot is Empty (R322). -/
def State.endStaging (s : State) (p status detail : Nat) : State :=
  (s.updPart p (fun q => { q with staging := none, other := 0, otag := 0 })).wswEnd p 1 status detail

/-- `STAGE` (R320). -/
def execStage (part : Nat) (s : State) : Res :=
  let q := s.part part
  if 8 ≤ part ∨ s.blocksOpen = false then .next s
  else if q.loaded = false then .next (s.wswEnd part 1 0x21 0)
  else if q.busy then .next (s.wswEnd part 1 0x20 0)
  else if q.other ≠ 0 then .next (s.wswEnd part 1 0x26 0)
  else
    let halted := s.fld (rSch (0x1002 + 8 * part)) 3 0 == 0
    .next (s.setPart part { q with staging := some { limit := if halted then some 0 else none }, other := 1, wswStatus := 1, wswDetail := 0 })

/-- `STAGING_DATA_ARRIVED` (R321, R322): the next bytes of the image arrive in ascending order, or the read failed; the header and every
record are checked as they are complete, and whole lines of the cores' data go to the inactive slot as background claims. Under a `SHARE` of 0
only the reads issued before it complete. -/
def execStagingDataArrived (part off : Nat) (data : Option Bytes) (s : State) : Res :=
  let q := s.part part
  match q.staging with
  | none => .next s
  | some st =>
    if s.schUp = false ∨ off ≠ st.img.length ∨ st.limit.any (fun n => decide (n < off + (data.getD []).length) || decide (n ≤ off)) then .next s
    else
      match s.dma (s.dmaFn part) data with
      | none => .next (s.endStaging part 0x27 0)
      | some bs =>
        let img := st.img ++ bs
        let header := if st.img.length < 256 ∧ 256 ≤ img.length then s.wimgHeader q img else none
        match header with
        | some (status, d) => .next (s.endStaging part status d)
        | none =>
          let whole (i : Nat) : Bool := decide (256 ≤ img.length) && decide (wimgDir img + 64 * (i + 1) ≤ img.length)
          match q.dir.find? (fun r => whole r.1 && !recordOk r.2.masterLen (wimgRec img r.1)) with
          | some r => .next (s.endStaging part 0x25 r.1)
          | none =>
            let s := s.setPart part { q with staging := some { st with img := img } }
            .next (q.dir.foldl (fun s r =>
              let old := wimgHave st.img r.1
              let new := wimgHave img r.1
              let at_ := (wimgRec img r.1).1
              s.bgWrite (s.dirCore q r.1) (r.2.slotBase (1 - q.liveSlot) + old) ((img.drop (at_ + old)).take (new - old))) s)

/-- Does a slice still have lines to write that staging or resupply brought? -/
def State.writesWait (s : State) (c : CoreId) : Bool :=
  (s.core c).claims.any (fun k => match k.kind with | .write _ => true | _ => false)

/-- `STAGING_COMPLETE` (R322): the last byte has arrived and is written; the digest decides. -/
def execStagingComplete (part : Nat) (s : State) : Res :=
  let q := s.part part
  match q.staging with
  | none => .next s
  | some st =>
    if st.img.length < 256 ∨ st.img.length < wimgLen st.img ∨ s.schUp = false ∨ q.recovery.isSome ∨ (s.partCores q).any s.writesWait then .next s
    else if Sha.sha256 ((st.img.take (wimgLen st.img)).drop 128) ≠ wimgDigest st.img then .next (s.endStaging part 0x23 0)
    else
      let q := { q with staging := none, other := 2, otag := wimgTag st.img
                        dir := q.dir.map (fun r => (r.1, { r.2 with afmtStaged := (wimgRec st.img r.1).2.2 })) }
      .next ((s.setPart part q).wswEnd part 1 4 0)

/-- The function of a requester that reaches registers through PCIe. -/
def fnOf : Requester → Option Nat
  | .pf => some 0
  | .vf n => some n
  | _ => none

/-- A `SHARE` written (R321): with 0 the transfer halts where it stands, but the reads issued before it, of a length that the spec leaves open,
complete. -/
def State.setShare (s : State) (p share : Nat) : State :=
  let old := s.fld (rSch (0x1002 + 8 * p)) 3 0
  let (f, s) := s.takeFree
  let s := s.updPart p (fun q => { q with staging := q.staging.map (fun st =>
    { st with limit := if share % 16 ≠ 0 then none else if old = 0 then st.limit else some (st.img.length + (Config.freeWord f p).toNat) }) })
  s.setFld (rSch (0x1002 + 8 * p)) 3 0 share

/-- `STAGING_SHARE_WRITE` (R321, R335): by the PF or the VF that owns the partition. -/
def execStagingShareWrite (rq : Requester) (part share : Nat) (s : State) : Res :=
  if s.blocksOpen && (fnOf rq).any (fun f => s.owns f part) then .next (s.setShare part share) else .next s

/-! ## Swaps (R323 to R328) -/

/-- A swap or rollback accepted: the barrier closes at the next boundary; a first load goes straight to the rewrite (R327). -/
def State.beginSwap (s : State) (p op : Nat) : State :=
  let first := !(s.part p).liveValid
  let s := s.updPart p (fun q =>
    { q with wop := some { op := op, step := if first then 4 else 1, first := first }, wswStatus := 2, wswDetail := 0 })
  if first then s.swapHold p else s

/-- A weight command that needs the inactive slot in a state. -/
def State.weightCmd (s : State) (p op need : Nat) (act : State → State) : State :=
  let q := s.part p
  if 8 ≤ p ∨ s.blocksOpen = false then s
  else if q.busy then s.wswEnd p op 0x20 0
  else if q.loaded = false ∨ q.other ≠ need ∨ q.unloading then s.wswEnd p op 0x26 0
  else act s

/-- `SWAP` (R323, R327). -/
def execSwap (part : Nat) (s : State) : Res := .next (s.weightCmd part 2 2 (fun s => s.beginSwap part 2))

/-- `ROLLBACK` (R328). -/
def execRollback (part : Nat) (s : State) : Res := .next (s.weightCmd part 3 3 (fun s => s.beginSwap part 3))

/-- `RELEASE` (R328). -/
def execRelease (part : Nat) (s : State) : Res :=
  .next (s.weightCmd part 4 3 (fun s => (s.updPart part (fun q => { q with other := 0, otag := 0 })).wswEnd part 4 4 0))

/-- `ABANDON` (R328): a staging ends, a Staged slot is discarded, with a swap that has not passed step 1. -/
def execAbandon (part : Nat) (s : State) : Res :=
  let q := s.part part
  let empty (s : State) : State := s.updPart part (fun q => { q with staging := none, wop := none, other := 0, otag := 0, barrier := false })
  if 8 ≤ part ∨ s.blocksOpen = false then .next s
  else
    match q.wop with
    | some w =>
      if w.step ≠ 1 then .next (s.wswEnd part 5 0x20 0)
      else if q.other ≠ 2 then .next (s.wswEnd part 5 0x26 0)
      else .next ((empty s).wswEnd part w.op 0x29 0)
    | none =>
      if q.staging.isSome then .next ((empty s).wswEnd part 1 0x29 0)
      else if q.other = 2 then .next ((empty s).wswEnd part 5 0x29 0)
      else .next (s.wswEnd part 5 0x26 0)

/-- A reversion begins (Table 11-5): the source slot becomes Empty, every core rewrites from the old live slot; a first load has none and the
partition stays without a live version. -/
def State.revert (s : State) (p i : Nat) : State :=
  match (s.part p).wop with
  | none => s
  | some w =>
    if w.first then ((s.updPart p (fun q => { q with wop := none, other := 0, otag := 0 })).wswEnd p w.op 0x28 i)
    else (s.updPart p (fun q => { q with wop := some { w with reverting := some i, waves := [], step := 4 }, other := 0, otag := 0 })).planWaves p

/-- `REWRITE_WAVE_DONE` (R326, R334): the cores of the running wave have rewritten their arrays. `bad` names a core of the wave whose source
slot held a line that stayed uncorrectable when read again. -/
def execRewriteWaveDone (part : Nat) (bad : Option Nat) (s : State) : Res :=
  let q := s.part part
  match q.wop with
  | none => .next s
  | some w =>
    match w.waves with
    | [] => .next s
    | wave :: rest =>
      if w.step ≠ 4 then .next s
      else
        let slot := q.sourceSlot
        let isBad (i : Nat) : Bool := bad == some i || s.slotBad (s.dirCore q i) slot (s.afmtOfSlot (s.dirCore q i) slot)
        match (if w.reverting.isSome then none else wave.find? isBad) with
        | some i => .next (s.revert part i)
        | none =>
          let s := wave.foldl (fun s i => let c := s.dirCore q i; s.rewriteCore c slot (s.afmtOfSlot c slot)) s
          let s := s.updPart part (fun q => { q with wop := some { w with waves := rest } })
          .next (if rest = [] then s.switchLive part else s)

end Sys2Proof.Machine
end

