-- ==== Sys2Proof/Machine/Power.lean ====
section
/-!
DEFINITION. Power delivery (16_power_delivery.md R435 to R460): bricks and the effective limit, rails and phases, shorts and dark isles, current
limits, pause duties, switch-on, parking.
-/
namespace Sys2Proof.Machine

/-! ## Events (R459) -/

/-- An event of `PWR_EVENT`. `HW_PAUSE` raises the power alarm. -/
def State.pwrEvent (s : State) (bit cls isle a : Nat) : State :=
  let s := s.orReg (rPwr 4) (2 ^ bit)
  let r : EvRec := { cls := cls, source := 83, bit := bit, reg := 4, isle := isle, a := a }
  if bit = 1 then s.alarm 0 r else s.log r

/-- An event of `PWR_ISLE_EVENT`: A the rail, B the phase or the plane group. `RAIL_DARK` and `ISOLATED` raise the power alarm. -/
def State.pwrIsleEvent (s : State) (isle bit cls a b : Nat) : State :=
  let part := (s.partOfPhys isle).getD 15
  if bit = 3 ∨ bit = 4 then
    (s.orReg (rIsle isle 0x8E0) (2 ^ bit)).alarm 0
      { cls := 0, source := isle, part := part, bit := bit, reg := 0x8E0, isle := isle, a := a, b := b }
  else s.isleEvent isle 0x8E0 bit cls part 255 a b 0

/-! ## Limits and budgets (R437, R443, R452) -/

/-- Working bricks. -/
def State.bricks (s : State) : Nat := s.fld (rPwr 1) 19 15

/-- The limit in effect from the limit taken over and the bricks that work (R437). -/
def State.applyLimit (s : State) : State := s.setFld (rPwr 1) 14 0 (Nat.min s.pw.limit (25000 - 1600 * (16 - s.bricks)))

/-- Phases of a rail, and how many of them may fail (Table 16-1). -/
def railPhases (rail : Nat) : Nat := [28, 10, 6, 2, 2].getD rail 0
def railSpare (rail : Nat) : Nat := [6, 2, 1, 1, 1].getD rail 0

/-- Retired phases of a rail. -/
def State.phasesOut (s : State) (isle rail : Nat) : Nat :=
  ((List.range (railPhases rail)).filter (fun k => (s.reg (rIsle isle (0x8D0 + rail))).getLsbD k)).length

/-- The derated budget of an isle in W (R443). -/
def State.effBudget (s : State) (isle : Nat) : Nat :=
  let w := Nat.min (s.fld (rPwr (0x100 + isle)) 9 0) 720
  (List.range 5).foldl (fun m r => Nat.min m (w * (railPhases r - s.phasesOut isle r) / railPhases r)) w

/-- The device enters Failed with a cause (R417); partitions stop. -/
def State.fail (s : State) (cause d2 : Nat) : State :=
  if s.devState = 10 then s else
  let s := (List.range 8).foldl (fun (s : State) p => if (s.part p).loaded then s.haltPart p else s) s
  ((s.enter 9).setFld (rSys 1) 31 16 cause).setFld (rSys 1) 7 4 d2

/-- Is the start under way a cold one (Table 15-11)? -/
def State.coldStart (s : State) : Bool := s.fld (rSys 3) 2 0 != 2 && s.fld (rSys 3) 2 0 != 3

/-- `BRICK_FAILED` (R437): a cold start with fewer than 16 bricks ends in Failed. -/
def execBrickFailed (s : State) : Res :=
  if s.bricks = 0 then .next s
  else
    let s := ((s.setFld (rPwr 1) 19 15 (s.bricks - 1)).applyLimit).pwrEvent 0 1 255 (s.bricks - 1)
    .next (if s.bricks < 16 ∧ s.devState < 6 ∧ s.coldStart then s.fail 5 0 else s)

/-! ## Isles leaving service (R444 to R446) -/

def State.setIsleState (s : State) (isle st : Nat) : State := s.setFld (rPwr (0x200 + isle)) 2 0 st

/-- What the cores of a physical isle hold is lost with its rails. -/
def State.loseIsle (s : State) (isle : Nat) : State :=
  match s.logicalIsle isle with
  | some l => s.wipeIsle l
  | none => s

/-- An isle's isolation switch opens for good: its power state, what it held, its failure. -/
def State.isleOff (s : State) (isle st : Nat) : State :=
  let s := s.setIsleState isle st
  let s := { s with pw := { s.pw with wait := ferase s.pw.wait isle, unpark := s.pw.unpark.filter (· != isle) } }
  (s.loseIsle isle).failIsle isle 1

/-- A rail beyond its tolerance takes the isle dark (R444); VS beyond its tolerance opens its own switch as well. -/
def State.goDark (s : State) (isle rail : Nat) : State :=
  let s := s.pwrIsleEvent isle 3 0 rail 0
  let s := if rail = 4 then { s with pw := { s.pw with vsOff := isle :: s.pw.vsOff } } else s
  s.isleOff isle 4

/-- A short isolates the isle (R445); one on VS opens only the VS switch. -/
def State.isolate (s : State) (isle : Nat) (vs : Bool) (a : Nat) : State :=
  let s := s.pwrIsleEvent isle 4 0 a 0
  if vs then { s with pw := { s.pw with vsOff := isle :: s.pw.vsOff } }.failIsle isle 1 else s.isleOff isle 5

/-- A phase is retired (R441, R443, R444): once; a rail beyond its tolerance takes the isle dark. -/
def State.retirePhase (s : State) (isle rail phase : Nat) : State :=
  let r := rIsle isle (0x8D0 + rail)
  if 80 ≤ isle ∨ railPhases rail ≤ phase ∨ (s.reg r).getLsbD phase then s
  else
    let s := (s.orReg r (2 ^ phase)).pwrIsleEvent isle 0 2 rail phase
    let s := s.repLog { kind := 6, cause := 1, isle := isle, site := 255, element := rail * 32 + phase }
    if s.phasesOut isle rail = railSpare rail + 1 then s.goDark isle rail else s

/-- `PHASE_RETIRED` (R441 items 1 to 3). -/
def execPhaseRetired (isle rail phase : Nat) (s : State) : Res := .next (s.retirePhase isle rail phase)

/-- `CRACK_CHECK` (R442): the tenth comparison in a row that exceeds the prediction by more than 50 % and more than 8 mV retires the phase. A
phase that the command does not list does not exceed it. -/
def execCrackCheck (drops : List PhaseDrop) (s : State) : Res :=
  if s.pwcUp = false then .next s
  else
    let excess := drops.filter (fun d => decide (3 * d.pred < 2 * d.meas) && decide (d.pred + 8 < d.meas))
    let key (d : PhaseDrop) : Nat := (d.isle * 8 + d.rail) * 32 + d.phase
    let old := s.pw.crack
    let counts := excess.foldl (fun m d => fset 0 m (key d) (fget 0 old (key d) + 1)) ([] : FMap Nat)
    let s := { s with pw := { s.pw with crack := counts } }
    .next (excess.foldl (fun (s : State) d =>
      if fget 0 counts (key d) = 10 then (s.pwrIsleEvent d.isle 1 2 d.rail d.phase).retirePhase d.isle d.rail d.phase else s) s)

/-- `RAIL_OVERVOLTAGE` (R439): as a short. -/
def execRailOvervoltage (isle rail : Nat) (s : State) : Res :=
  if 80 ≤ isle ∨ s.isleState isle = 4 ∨ s.isleState isle = 5 then .next s else .next (s.isolate isle (rail == 4) rail)

/-- `SENSE_LOST` (R440). -/
def execSenseLost (isle rail : Nat) (s : State) : Res :=
  let r := rIsle isle (0x8D0 + rail)
  if 80 ≤ isle ∨ 5 ≤ rail ∨ s.fld r 28 28 = 1 then .next s
  else .next ((s.setFld r 28 28 1).pwrIsleEvent isle 2 2 rail 0)

/-- `ISOLATED` (R445). -/
def execIsolated (isle : Nat) (vs : Bool) (s : State) : Res :=
  if 80 ≤ isle ∨ (vs = false ∧ s.isleState isle = 5) ∨ (vs ∧ s.pw.vsOff.contains isle) then .next s
  else .next (s.isolate isle vs (if vs then 4 else 255))

/-! ## Hardware pauses (R447, R451) -/

/-- A hardware pause begins. -/
def State.hwOn (s : State) (c : Nat) : State :=
  if s.pw.hw.contains c then s else { s with pw := { s.pw with hw := s.pw.hw ++ [c] } }

/-- A hardware pause ends. -/
def State.hwOff (s : State) (c : Nat) : State := { s with pw := { s.pw with hw := s.pw.hw.filter (· != c) } }

/-- `CUR_LIMIT` (R447): more than 120 A in an isle, or 600 A in a plane group, for 20 µs. A group's limit is an event of each of its isles. -/
def execCurLimit (u : CurUnit) (s : State) : Res :=
  match u with
  | .isle i => if 80 ≤ i ∨ s.pw.hw.contains i then .next s else .next ((s.hwOn i).pwrIsleEvent i 5 1 255 255)
  | .group g =>
    if 8 ≤ g ∨ s.pw.hw.contains (100 + g) then .next s
    else .next ((List.range 10).foldl (fun s k => s.pwrIsleEvent (g * 10 + k) 5 1 255 g) (s.hwOn (100 + g)))

/-- `CUR_LIMIT_RELEASE` (R447): below 100 A or 540 A. -/
def execCurLimitRelease (u : CurUnit) (amps : Nat) (s : State) : Res :=
  match u with
  | .isle i => if amps < 100 then .next (s.hwOff i) else .next s
  | .group g => if amps < 540 then .next (s.hwOff (100 + g)) else .next s

/-- `INPUT_SAMPLE` (R451): one 10 µs sample of the input monitor; the average runs over the last 1,000 samples. -/
def execInputSample (watts : Nat) (s : State) : Res :=
  let l := watts :: s.pw.samples.take 999
  let s := { s with pw := { s.pw with samples := l } }
  let begin_ (s : State) (c : Nat) : State := if s.pw.hw.contains c then s else (s.hwOn c).pwrEvent 1 0 255 (c - 200)
  let s := if 30000 < watts then begin_ s 200 else if watts < 25000 then s.hwOff 200 else s
  .next (if 24900000 ≤ l.sum then begin_ s 201 else if l.sum < 24000000 then s.hwOff 201 else s)

/-! ## Parking and switch-on (R453 to R456) -/

/-- The isle's draw at 6 V in A of its plane group. -/
def State.groupAmps (s : State) (g : Nat) : Nat := s.fld (rPwr (0x10 + g)) 9 0

/-- Has a plane group room for a waiting isle (R453 item 2)? -/
def State.groupRoom (s : State) (isle : Nat) : Bool := decide (6 * s.groupAmps (isle / 10) + s.effBudget isle ≤ 3240)

/-- The refresh debts of an isle's slices start again at 0 as its PLL locks (R298 item 4). -/
def State.restartDebts (s : State) (isle : Nat) : State :=
  (s.cores.map Prod.fst).foldl (fun (s : State) c =>
    if s.isleOf c = isle ∧ (s.core c).debts ≠ [] then s.updCore c (fun k => { k with debts := [] }) else s) s

/-- An isle switches on (R453): at once where the power controller runs and its group draws no more than 540 A, with no other isle of the
group waiting; else it waits. One that leaves parking then ramps and sweeps its margins (R456). -/
def State.switchOn (s : State) (isle : Nat) (unpark : Bool) : State :=
  if s.devState = 10 then s else
  let s := if unpark then { s with pw := { s.pw with unpark := isle :: s.pw.unpark.filter (· != isle) } } else s
  let busy := decide (540 < s.groupAmps (isle / 10))
  let queue := s.pw.wait.any (fun w => decide (w.1 / 10 = isle / 10))
  if busy || queue || !s.pwcUp then
    let s := if busy then s.satFld (rPwr (0x10 + isle / 10)) 25 10 1 else s
    { s with pw := { s.pw with wait := fset 0 s.pw.wait isle (s.now + 1) } }.setIsleState isle 6
  else if unpark then s.setIsleState isle 1
  else (s.restartDebts isle).setIsleState isle 2

/-- An isle is parked (R454): the partition that holds it is suspended as a whole. -/
def State.parkIsle (s : State) (isle : Nat) : State :=
  let s := s.setIsleState isle 3
  match s.partOfPhys isle with
  | some p => s.updPart p (fun q => { q with suspended := if q.suspended.contains isle then q.suspended else q.suspended ++ [isle] })
  | none => s

/-- Is an isle outside every partition and every load's reservation (R455)? -/
def State.isleFree (s : State) (isle : Nat) : Bool :=
  match s.logicalIsle isle with
  | some l => (s.partOfIsle l).isNone && (s.loadAt l).isNone
  | none => true

/-- A host park request that waits is carried out once the isle is free and on (R455 item 2). -/
def State.hostPark (s : State) (isle : Nat) : State :=
  let r := rPwr (0x300 + isle)
  if s.fld r 1 1 = 1 ∧ s.pwcUp = true ∧ s.isleFree isle ∧ (s.isleState isle = 2 ∨ s.isleState isle = 3) then
    (s.setFld r 1 1 0).parkIsle isle
  else s

/-- `POWER_LIMIT_WRITE` (R452): a raise is ignored. -/
def execPowerLimitWrite (v : Word) (s : State) : Res :=
  let w := Nat.min (bits v.toNat 14 0) 25000
  if s.blocksOpen = false then .next s
  else if s.fld (rPwr 0) 14 0 < w then .next (s.pwrEvent 3 2 255 w) else .next (s.setFld (rPwr 0) 14 0 w)

/-- `PARK_REQUEST` (R455): sets or clears `PWR_PARK.PARK`. -/
def execParkRequest (isle : Nat) (on : Bool) (s : State) : Res :=
  if 80 ≤ isle ∨ s.blocksOpen = false then .next s
  else
    let r := rPwr (0x300 + isle)
    if on then
      (if s.fld r 0 0 = 1 then .next s else .next ((s.setFld r 1 0 3).hostPark isle))
    else
      let held := s.fld (rThm (0x100 + isle)) 14 14 == 1
      let s := s.setFld r 1 0 0
      .next (if s.isleState isle = 3 ∧ held = false then s.switchOn isle true else s)

/-- `ISLE_SWITCH_ON` (R453): the lowest waiting isle of its group, once the group has room. -/
def execIsleSwitchOn (isle : Nat) (s : State) : Res :=
  let first := (s.pw.wait.map Prod.fst).find? (fun i => i / 10 == isle / 10)
  if s.isleState isle ≠ 6 ∨ s.pwcUp = false ∨ s.devState = 10 ∨ first ≠ some isle ∨ s.groupRoom isle = false then .next s
  else
    let s := { s with pw := { s.pw with wait := ferase s.pw.wait isle, longWait := s.pw.longWait.filter (· != isle) } }
    .next (if s.pw.unpark.contains isle then s.setIsleState isle 1 else (s.restartDebts isle).setIsleState isle 2)

/-- `UNPARK_COMPLETE` (R65, R456): rails ramped, the margins of every array swept; the isle reports ready and its partition's suspension ends with the last parked
isle. -/
def execUnparkComplete (swept : IsleSweep) (s : State) : Res :=
  let isle := swept.isle
  if s.isleState isle ≠ 1 ∨ s.pw.unpark.contains isle = false ∨ s.icUp isle = false then .next s
  else
    let s := { (s.sweepIsle isle swept.sweeps) with pw := { s.pw with unpark := s.pw.unpark.filter (· != isle) } }.setIsleState isle 2
    .next (match s.partOfPhys isle with
      | some p => s.updPart p (fun q => { q with suspended := q.suspended.filter (· != isle) })
      | none => s)

/-! ## The power controller's period (R450, R453) -/

/-- Loaded partitions of a mode: Throughput or Latency (R35). -/
def State.loadedParts (s : State) (throughput : Bool) : List Nat :=
  (List.range 8).filter (fun p => (s.part p).loaded && ((s.part p).mode == 1) == throughput)

def State.pduty (s : State) (p : Nat) : Nat := s.fld (rPwr (0x20 + p)) 9 5

/-- The partitions that must be raised first: the Throughput ones below 16/16; with none, the Latency ones (R35). -/
def State.raiseFirst (s : State) (among : Nat → Bool) : List Nat :=
  let t := (s.loadedParts true).filter (fun p => among p && decide (s.pduty p < 16))
  if t = [] then (s.loadedParts false).filter (fun p => among p && decide (s.pduty p < 16)) else t

/-- The partitions that a waiting isle past its 5 ms raises (R453 item 2). -/
def State.raiseForWait (s : State) (isle : Nat) : List Nat :=
  if s.groupRoom isle then [] else s.raiseFirst (fun p => (s.partPhys p).any (fun i => i / 10 == isle / 10))

def State.setPduty (s : State) (p d : Nat) : State := s.setFld (rPwr (0x20 + p)) 9 5 d

/-- The steps of R450 and R453 at an averaged input power: at most one for each partition. -/
def State.stepDuties (s : State) (inW : Nat) : State :=
  let lim := s.fld (rPwr 1) 14 0
  if lim = 0 then (List.range 8).foldl (fun (s : State) p => if (s.part p).loaded then s.setPduty p 16 else s) s
  else
    let excess (p : Nat) : Bool := (s.partPhys p).any (fun i => decide (s.effBudget i < s.fld (rPwr (0x200 + i)) 12 3))
    let byLimit := if lim < inW + 250 then s.raiseFirst (fun _ => true) else []
    let byIsle := (List.range 8).filter excess
    let anyOver := (List.range 80).any (fun i => decide (s.effBudget i < s.fld (rPwr (0x200 + i)) 12 3))
    let byWait := (s.pw.longWait.map s.raiseForWait).flatten
    let up := (List.range 8).filter (fun p => byLimit.contains p || byIsle.contains p || byWait.contains p)
    let lat := (s.loadedParts false).filter (fun p => decide (0 < s.pduty p))
    let down := if inW + 1000 < lim ∧ anyOver = false then (if lat = [] then (s.loadedParts true).filter (fun p => decide (0 < s.pduty p)) else lat) else []
    let down := down.filter (fun p => !up.contains p)
    let s := up.foldl (fun (s : State) p => s.setPduty p (Nat.min 16 (s.pduty p + 1))) s
    down.foldl (fun (s : State) p => s.setPduty p (s.pduty p - 1)) s

/-- `POWER_CONTROL_PERIOD` (R450, R452): the measurements of the last 1 ms, input power and voltage and isle draws; the limit is taken over,
duties step, park requests and rewrites that waited (R326, R455) go on. -/
def execPowerControlPeriod (inW inCv : Nat) (draws : List (Nat × Nat)) (s : State) : Res :=
  if s.pwcUp = false then .next s
  else
    let s := ({ s with pw := { s.pw with limit := s.fld (rPwr 0) 14 0 } }).applyLimit
    let s := s.setRegN (rPwr 2) (inW % 2 ^ 15 + inCv % 2 ^ 13 * 2 ^ 15)
    let s := (draws.filter (fun d => decide (d.1 < 80))).foldl (fun (s : State) d => s.setFld (rPwr (0x200 + d.1)) 12 3 (Nat.min d.2 1023)) s
    let amps (s : State) (g : Nat) : Nat := ((List.range 10).map (fun k => s.fld (rPwr (0x200 + g * 10 + k)) 12 3)).sum / 6
    let s := (List.range 8).foldl (fun (s : State) g => s.setFld (rPwr (0x10 + g)) 9 0 (Nat.min (amps s g) 1023)) s
    let s := s.stepDuties inW
    let s := (List.range 80).foldl State.hostPark s
    .next ((List.range 8).foldl (fun (s : State) p => match (s.part p).wop with
      | some w => if w.step = 3 then s.planWaves p else s
      | none => s) s)

/-- `GROUP_WAIT` (R453 item 2): a switch-on has waited more than 5 ms; the event, and the first step of duty. -/
def execGroupWait (isle : Nat) (s : State) : Res :=
  match fget 0 s.pw.wait isle with
  | 0 => .next s
  | t + 1 =>
    if s.pwcUp = false ∨ s.now ≤ t + 5000000 ∨ s.pw.longWait.contains isle then .next s
    else
      let s := { s with pw := { s.pw with longWait := isle :: s.pw.longWait } }.pwrEvent 2 2 isle (isle / 10)
      .next ((s.raiseForWait isle).foldl (fun (s : State) p => s.setPduty p (Nat.min 16 (s.pduty p + 1))) s)

end Sys2Proof.Machine
end

