-- ==== Sys2Proof/Machine/Start.lean ====
section
/-!
DEFINITION. Start, clocks and resets (15_start_clocks_reset.md R415 to R434, R554; 20_security.md R516 to R522): the states of Table 15-1, the
boot chain's decisions, the repair map, warm and cold restarts, PLL losses.
-/
namespace Sys2Proof.Machine

/-! ## What a cold restart keeps -/

/-- The device starts afresh in Aux (R429, Table 15-8): everything at reset but the stepping, what has been sent, the repair log's records and
the model's own fields. -/
def State.coldRestart (s : State) (kind source : Nat) : State :=
  let t : State := { State.reset with out := s.out, pending := s.pending, free := s.free, repRecs := s.repRecs, accEpoch := s.accEpoch + 1 }
  (t.setFld (rSys 0) 19 16 (s.fld (rSys 0) 19 16)).setRegN (rSys 3) (kind + 8 * source)

/-! ## What a warm restart keeps (Table 15-8, R554) -/

/-- Is a register in the SCH, HOST, CWY or CFG block? -/
def hostSide (r : Nat) : Bool :=
  (decide (0x4000 ≤ r) && decide (r < 0x20000)) || (decide (0x80000 ≤ r) && decide (r < 0x100000)) || (decide (2 ^ 27 ≤ r) && decide (r < 2 ^ 28))

/-- Registers whose own statement says that they are cleared: state entry times, the state itself, pause duties, isle power states, histograms,
SEC's nonce, counters and command status, processor states, free counts (R150, R502, R529, R538, R553). -/
def warmClears (r : Nat) : Bool :=
  (decide (rSys 1 ≤ r) && decide (r ≤ rSys 1)) || (decide (rSys 0x10 ≤ r) && decide (r ≤ rSys 0x1A)) ||
  (decide (rPwr 0x20 ≤ r) && decide (r < rPwr 0x28)) || (decide (rPwr 0x200 ≤ r) && decide (r < rPwr 0x250)) ||
  (decide (rPwr 0x300 ≤ r) && decide (r < rPwr 0x350)) || (decide (rTel 0x500 ≤ r) && decide (r < rTel 0x700)) ||
  [rSec 2, rSec 3, rSec 0x21, rSec 0x24, rSec 0x25, rSec 0x26, rSec 0x27].contains r ||
  (decide (2 ^ 32 ≤ r) && decide (0x880 ≤ (r - 2 ^ 32) % 2 ^ 13) && decide ((r - 2 ^ 32) % 2 ^ 13 < 0x888))

/-- The value of a register after a warm restart. -/
def warmValue (r : Nat) (v : Word) : Word :=
  let acc := regAcc r
  let init := (regReset r).toNat
  let pick (m : Nat) : Word := BitVec.ofNat 32 ((v.toNat &&& m) + (init - (init &&& m)))
  if warmClears r then regReset r
  else if r = rCwy 1 ∨ r % 2 ^ 16 = 5 ∧ 2 ^ 27 ≤ r ∧ r < 2 ^ 28 ∨ r = rHost 0 5 ∨ r = rCfg 5 then v
  else if hostSide r then pick acc.w1c
  else pick (2 ^ 32 - 1 - (acc.rw ||| acc.rwt ||| acc.wo))

/-- A core after a warm restart: only what the repair map says of its slice stays. -/
def Core.warm (k : Core) : Core := { rowMap := k.rowMap, rowWait := k.rowWait, spareUsed := k.spareUsed, accGen := k.accGen }

/-- An array after a warm restart: its cells are not the weights any more; what the repair map and the counters say stays. -/
def Arr.warm (a : Arr) (k : Nat) : Arr :=
  { a with rows := [], offCells := [], scales := [], state := if a.state = 4 then 4 else (arrReset k).state, logical := 63, slot := 0, measured := [], fill := none
           fillSkip := [], dirty := [], replaces := none, badWin := [] }

/-- The sensors of an isle after a warm restart. -/
def Heat.warm (h : Heat) : Heat := { h with fullAt := none }

/-- A warm restart (R431, R433, R554). The link stays up on a request, and is trained again after PERST#. -/
def State.warmRestart (s : State) (kind source : Nat) : State :=
  let warms := Nat.min (s.fld (rSys 3) 31 16 + 1) 0xFFFF
  let s := if s.fwu.isSome then s.endUpdate false else s
  let failed : FMap StraitCh := (s.strait.filter (fun x => x.2.failed)).map (fun x => (x.1, { failed := true }))
  let s := { s with
    startCyc := s.cyc, accEpoch := s.accEpoch + 1, regs := (s.regs.map (fun (r : Nat × Word) => (r.1, warmValue r.1 (s.reg r.1)))).filter (fun (r : Nat × Word) => r.2 != regReset r.1)
    sel := [], holdHi := [], heldLo := [], mem := [], cores := s.cores.map (fun (k : Nat × Core) => (k.1, k.2.warm)), arrs := s.arrs.map (fun (a : Nat × Arr) => (a.1, a.2.warm a.1))
    parts := [], loads := [], reqs := [], isleDue := [], resup := none, rings := [], pollFrom := 0, subq := [], net := [], flows := [], links := []
    strait := failed, phase := false, stag := [], seq := 0, secRec := none, tagFails := [], fwu := none, restarts := [], tx := [], sess := [], spdm := [], ide := []
    ideKeys := [], icAt := [], linkUp := if source = 3 then false else s.linkUp
    fabric := { ident := s.fabric.ident }
    pw := { limit := 25000, vsOff := s.pw.vsOff, samples := s.pw.samples }
    heat := s.heat.map (fun (h : Nat × Heat) => (h.1, h.2.warm)) }
  let s := (s.setFld (rSec 0) 1 1 0).setFld (rSys 4) 5 4 3
  let s := ((List.range 3).map (fun k => rSys (0x50 + k)) ++ (List.range 80).map (fun i => rIsle i 0x930)).foldl
    (fun (s : State) r => (s.setFld r 1 0 0).setFld r 6 4 0) s
  let s := (List.range 80).foldl (fun (s : State) i =>
    let s := (List.range 5).foldl (fun (s : State) r => s.setFld (rIsle i (0x8D0 + r)) 28 28 0) s
    s.setFld (rThm (0x100 + i)) 14 14 0) s
  let s := (s.setRegN (rSys 3) (kind + 8 * source + 65536 * warms)).applyLimit
  (s.setFld (rSys 1) 3 0 1).enter 2

/-! ## Reset requests (R430, R471) -/

/-- Does every sensor that is not broken read below 85.0 degrees (R471 item 5)? -/
def State.isCool (s : State) : Bool :=
  (List.range 80).all (fun i => (List.range 36).all (fun n =>
    let v := s.regN (rIsle i (0x8F0 + n))
    bits v 15 14 == 1 || decide ((bits v 11 0 + 2048) % 4096 < 680 + 2048)))

/-- Has the device reached Mapped since its cold start? -/
def State.mapped (s : State) : Bool :=
  let st := s.devState
  !s.coldStart || decide (5 ≤ st ∧ st ≤ 8) || (st == 9 && s.regN (rSys 0x15) != 0)

/-- A reset requested (R418, R429, R430): `kind` 1 warm or 2 cold, `source` as `SYS_RST_CAUSE` has it. In Shutdown it is held until the die is
cool, and then runs as a cold restart. -/
def State.requestReset (s : State) (kind source : Nat) : State :=
  if s.devState = 0 then s
  else if s.devState = 10 then
    (if s.isCool then s.coldRestart 4 source else { s with pw := { s.pw with heldReset := some source } })
  else if kind = 2 ∨ s.mapped = false then s.coldRestart 1 source
  else s.warmRestart (if source = 3 then 3 else 2) source

/-- A value written to `SYS_RESET` (Table 15-10). -/
def State.sysReset (s : State) (v : Nat) (source : Nat) : State :=
  if bits v 15 8 ≠ 0xA5 then s
  else if bits v 1 0 = 1 then s.requestReset 1 source
  else if bits v 1 0 = 2 then s.requestReset 2 source
  else s

/-- `SYS_RESET_WARM` (R431): a write of `SYS_RESET` through the PF. -/
def execSysResetWarm (rq : Requester) (v : Word) (s : State) : Res := if rq = .pf then .next (s.sysReset v.toNat 1) else .next s

/-- `SYS_RESET_COLD` (R429): a write of `SYS_RESET` through the PF. -/
def execSysResetCold (rq : Requester) (v : Word) (s : State) : Res := if rq = .pf then .next (s.sysReset v.toNat 1) else .next s

/-- `SIDEBAND_RESET_REQUEST` (R429, R552 item 7). -/
def execSidebandResetRequest (v : Word) (s : State) : Res := .next (s.sysReset v.toNat 2)

/-- `PERST_ASSERTION` (R429, R430 item 4): during a restart it only delays link training. -/
def execPerstAssertion (s : State) : Res :=
  if s.devState = 0 then .next s
  else if s.devState ≤ 5 then .next { s with linkUp := false }
  else .next { s.requestReset 1 3 with linkUp := false }

/-! ## Power (R415, R429, R471) -/

/-- `INPUT_POWER_APPLIED` (R415): 48 V in range for 10 ms. -/
def execInputPowerApplied (s : State) : Res := if s.devState = 0 then .next (s.coldRestart 0 0) else .next s

/-- `INPUT_POWER_LOSS` (R429): Off, `STATE` 0 standing for it. -/
def execInputPowerLoss (s : State) : Res := .next ((s.coldRestart 0 0).setFld (rSys 1) 3 0 0)

/-- `AUX_COMPLETE` (R415): the harbour PLLs are locked and SEC is released; not while a sensor reads 85.0 degrees or more (R471). -/
def execAuxComplete (s : State) : Res :=
  if s.devState ≠ 1 ∨ s.isCool = false then .next s else .next (((s.setFld (rSys 4) 0 0 1).setFld (rSys 4) 5 2 15).enter 2)

/-! ## Root (R419 to R422, R516 to R522) -/

/-- The slot that SEC selects: 0 A, 1 B, and whether the other one fell out on its full verification (R420, R517). -/
def rootSelect (f : RootFacts) : Option (Nat × Bool) :=
  let ok (x : SlotFacts) : Bool := f.floorOk && x.sigOk && decide (f.floor ≤ x.version)
  let order := if ok f.slotA && ok f.slotB then (if f.slotA.version < f.slotB.version then [1, 0] else [0, 1])
    else if ok f.slotA then [0] else if ok f.slotB then [1] else []
  let full (k : Nat) : Bool := if k = 0 then f.slotA.fullOk else f.slotB.fullOk
  match order.find? full with
  | some k => some (k, decide (order.head? ≠ some k))
  | none => none

/-- An array found bad at the start is Retired and its engine's spare array takes its place (R70, R71); with no sound spare the site fails (R73).
A spare array found bad serves nobody: the site of an array that it stands for fails. -/
def State.startRetire (s : State) (site arr : Nat) : State :=
  let s := s.updArr (site * 64 + arr) (fun a => { a with state := 4 })
  if arr < 48 then
    let sp := site * 64 + spareOf arr
    if fget 0 s.arrMap (site * 64 + arr) ≠ 0 then s
    else if (s.arr sp).state = 4 ∨ s.spareTaken sp then { s with siteFail := fset 0 s.siteFail site 6 }
    else { s with arrMap := fset 0 s.arrMap (site * 64 + arr) (spareOf arr + 1) }
  else if s.spareTaken (site * 64 + arr) then { s with siteFail := fset 0 s.siteFail site 6 }
  else s

/-- A column found bad at the start is mapped to a spare before any weights are loaded; a spare column goes out of use; an array with no spare
column left is not taken into service (R70). -/
def State.startColumn (s : State) (site arr col : Nat) : State :=
  let k := site * 64 + arr
  let a := s.arr k
  if 1056 ≤ col then
    (if a.freeSpares.contains (col - 1056) then (s.setArr k { a with spareBad := a.spareBad + 2 ^ (col - 1056) }).spareColLow k col else s)
  else
    match a.freeSpares with
    | sp :: _ =>
      let old := fget 0 a.spareMap col
      (s.setArr k { a with spareMap := fset 0 a.spareMap col (sp + 1)
                           spareBad := if old = 0 then a.spareBad else a.spareBad ||| 2 ^ (old - 1) }).spareColLow k col
    | [] => s.startRetire site arr

/-- The two ends of a physical strait edge: edge channels join isles that lie side by side on the wafer, row 0 northernmost, column 0 westernmost. -/
def wiredEnds (isle edge : Nat) : List (Nat × Nat) :=
  let far : Option Nat :=
    if edge = 0 then (if 10 ≤ isle then some (isle - 10) else none)
    else if edge = 1 then (if isle % 10 < 9 then some (isle + 1) else none)
    else if edge = 2 then (if isle < 70 then some (isle + 10) else none)
    else (if 0 < isle % 10 then some (isle - 1) else none)
  (isle, edge) :: (far.map (fun f => (f, (edge + 2) % 4))).toList

/-- A channel of an edge that the repair map lists as failed (R270, R287, R424): at both ends it moves to the next spare; with no spare left the edge
has failed. -/
def State.startChannel (s : State) (isle edge ch : Nat) : State :=
  let left := s.fld (rIsle isle (0x8B0 + edge)) 25 24
  let ends := wiredEnds isle edge
  if left = 0 then
    { ends.foldl (fun (s : State) e => s.setFld (rIsle e.1 (0x8B0 + e.2)) 26 26 1) s with edgeFail := s.edgeFail ++ ends }
  else
    ends.foldl (fun (s : State) e =>
      { s.setFld (rIsle e.1 (0x8B0 + e.2)) 25 24 (left - 1) with chMap := fset 0 s.chMap (e.1 * 64 + e.2 * 16 + ch) (3 - left) }) s

/-- One defect of the repair map in effect (R424; `ELEMENT` as the unit's own registers pack it). -/
def State.applyDefect (s : State) (d : Defect) : State :=
  let site := d.isle * 169 + d.site
  if 80 ≤ d.isle then s
  else
    match d.kind with
    | 1 => { s with siteFail := fset 0 s.siteFail site (if d.cause = 3 then 7 else 6) }
    | 2 => s.startRetire site (d.element % 64)
    | 3 => s.startColumn site (d.element % 64) (d.element / 64)
    | 4 =>
      let c := s.sliceAt d.isle d.site
      let bank := d.element / 4096
      let row := d.element % 4096
      if fget 0 (s.core c).rowMap d.element ≠ 0 then s
      else if spareRows (s.core c) bank = 0 then s.cabEvent c 3 1 (64 * (row * 512 + bank)) 0 bank
      else s.takeRow c bank row
    | 5 => s.startChannel d.isle (d.element / 16 % 4) (d.element % 16)
    | 6 => s.orReg (rIsle d.isle (0x8D0 + d.element / 32)) (2 ^ (d.element % 32))
    | 7 => s.setFld (rIsle d.isle (0x8F0 + d.element)) 15 14 1
    | 8 => if s.isleFail.contains d.isle then s else { s with isleFail := s.isleFail ++ [d.isle] }
    | _ => s

/-- The configuration image is verified: `SYS_ID` shows grade and columns from now on (R3). -/
def State.bootGrade (s : State) (f : RootFacts) : State := s.setFld (rSys 0) 15 4 (if f.grade = 0x40 then 0x408 else 0x489)

/-- What SEC has verified in Root takes effect. -/
def State.bootFrom (s : State) (f : RootFacts) (slot : Nat) (fallback : Bool) : State :=
  let x := if slot = 0 then f.slotA else f.slotB
  let s := ((s.bootGrade f).setRegN (rSys 5) (slot + 2 * b2n fallback + 65536 * Nat.min f.logFreeKiB 0xFFFF)).setRegN (rSys 6) x.version
  let s := (List.range 9).foldl (fun (s : State) fn => (s.setRegN (rHost fn 2) x.ifMin).setRegN (rHost fn 3) x.ifMax) s
  let s := (s.setReg64 (rSec 2) f.nonce.toNat).setRegN (rSec 5) f.floor
  let s := match f.owner with
    | .valid policy pref key _ =>
      { ((s.setFld (rSec 0) 0 0 1).setRegN (rSec 4) (policy % 16)).setRegN (rCwy 1) (pref % 4096) with cmdKey := key }
    | _ => s
  let ownerDigest := match f.owner with
    | .valid _ _ _ d => d
    | _ => List.replicate 32 0
  let meas : FMap Bytes := [(1, f.romDigest), (2, x.digest ++ natLe 4 x.version), (3, f.deviceDigest), (4, ownerDigest)
                           , (5, natLe 4 f.floor ++ natLe 1 (slot + 2 * b2n fallback)), (7, natLe 4 (s.regN (rSec 4)))]
  let s := { s with meas := meas, chain := f.chain, repRoom := f.logFreeKiB * 32, fabric := { s.fabric with ident := f.ident } }
  let s := s.setFld (rSys 0x41) 31 17 (Nat.min f.logBad 0x7FFF)
  let s := if f.logBad = 0 then s else s.log { cls := 2, source := 85, reg := 0x41, a := f.logBad }
  let s := (f.sensorSpare.filter (fun p => decide (p.1 < 80 * 64))).foldl (fun (s : State) p =>
    { s with heat := fset {} s.heat (p.1 / 64) (let h : Heat := fget {} s.heat (p.1 / 64)
                                                { h with spareOf := fset 0 h.spareOf (p.1 % 64) (p.2 + 1) }) }) s
  let s := (List.range 160).foldl (fun (s : State) k => s.setFld (rIsle (k / 2) (0x8D8 + k % 2)) 31 21 (f.setMv.getD k 0)) s
  let s := (List.range 80).foldl (fun (s : State) i =>
    ((s.setFld (rIsle i 0x8DA) 31 21 1050).setFld (rIsle i 0x8DB) 31 21 1800).setFld (rIsle i 0x8DC) 31 21 750) s
  s

/-- The physical columns of a row that carry its logical columns (R24): sound isles, of which those the map names as spares, and then the last
ones, stay outside. None where the row has too few. -/
def State.rowColumns (s : State) (row : Nat) (spares : List Nat) : Option (List Nat) :=
  let good := (List.range 10).filter (fun k => !s.isleFail.contains (row * 10 + k))
  let extra := good.length - s.gridCols
  if good.length < s.gridCols then none
  else
    let named := good.filter spares.contains
    let rest := (good.filter (fun k => !spares.contains k)).reverse
    let out := (named ++ rest).take extra
    some (good.filter (fun k => !out.contains k))

/-- The logical grid formed from the repair map: every row, the first that cannot be, or the state with every isle and core placed. -/
def State.formGrid (s : State) (spareCols : List (List Nat)) : State × Option Nat :=
  (List.range 8).foldl (fun (x : State × Option Nat) row =>
    match x.2 with
    | some _ => x
    | none =>
      match x.1.rowColumns row (spareCols.getD row []) with
      | none => (x.1, some row)
      | some cols =>
        let gc := x.1.gridCols
        let s := (List.range gc).foldl (fun (s : State) k =>
          let l := row * gc + k
          { s with isleMap := fset 0 s.isleMap l (row * 10 + cols.getD k 0 + 1) }.placeCores l) x.1
        (s, none)) (s, none)

/-- What the slices keep goes with their sites when the grid forms anew. -/
def State.reseat (s old : State) : State :=
  old.cores.foldl (fun (s : State) k =>
    let site := old.siteKey k.1
    s.setCore (s.sliceAt (site / 169) (site % 169)) k.2) { s with cores := [] }

/-- An isle whose core sites cannot present its cores is a failed isle (R481 item 3). -/
def State.failBadIsles (s : State) : State :=
  (List.range 80).foldl (fun (s : State) i => if s.absorbable i then s else s.failIsle i 0) s

/-- Defects merged into the repair map, and the grid they leave: rows of cabinets last, as they belong to the cores' slices. -/
def State.merge (s : State) (ds : List Defect) (spareCols : List (List Nat)) : State × Option Nat :=
  let s := ((ds.filter (fun d => d.kind != 4)).foldl State.applyDefect s).failBadIsles
  let (s', bad) := s.formGrid spareCols
  ((ds.filter (fun d => d.kind == 4)).foldl State.applyDefect (s'.reseat s), bad)

/-- The causeway ports begin to train (R395). -/
def State.trainPorts (s : State) : State := (List.range 16).foldl (fun (s : State) n => s.setFld (rCwy (0x10 + n)) 7 7 1) s

/-- `ROOT_COMPLETE` (R415 to R420, R516 to R522): the decisions of Root, on what SEC read and verified; a warm restart keeps the copies and draws a
new nonce (R431, R529). Causes are found in the order of Table 15-2. -/
def execRootComplete (facts : RootFacts) (s : State) : Res :=
  if s.devState ≠ 2 then .next s
  else if s.coldStart = false then .next (((s.setReg64 (rSec 2) facts.nonce.toNat).trainPorts).enter 3)
  else
    match rootSelect facts with
    | none => .next (s.fail 1 0)
    | some (slot, fallback) =>
      if facts.deviceOk = false ∨ facts.owner = OwnerRegion.invalid then .next (s.fail 2 0)
      else
      let s := s.bootGrade facts
      if facts.pufOk = false then .next (s.fail 3 0)
      else if facts.procsOk = false then .next (s.fail 4 0)
      else if s.bricks < 16 then .next (s.fail 5 0)
      else
        let s := s.bootFrom facts slot fallback
        let s := (s.merge facts.stored facts.spareCols).1
        .next (s.trainPorts.enter 3)

/-! ## Powering, testing, mapping (R421 to R424) -/

/-- The isle that the power controller starts next (R422). -/
def State.nextIsle (s : State) : Option Nat := (List.range 80).find? (fun i => !s.isleFail.contains i && s.isleState i == 0)

/-- `ISLE_POWER_UP` (R422): one isle every 25 ms; one that fails is marked in the repair map. -/
def execIslePowerUp (res : PowerUp) (s : State) : Res :=
  if s.devState ≠ 3 ∨ s.pwcUp = false then .next s
  else
    match s.nextIsle with
    | none => .next s
    | some i =>
      match res with
      | .ok => .next ((s.switchOn i false).setFld (rSys 1) 15 8 (s.fld (rSys 1) 15 8 + 1))
      | .short => .next (s.isolate i false 255)
      | .noRegulation => .next (s.failIsle i 0)
      | .noLock => .next (s.failIsle i 0)

/-- `POWERING_COMPLETE` (R415). -/
def execPoweringComplete (s : State) : Res :=
  if s.devState = 3 ∧ (List.range 80).all (fun i => s.isleFail.contains i || s.isleState i == 2) then .next (s.enter 4) else .next s

/-- Is a defect in the repair map already? -/
def State.knownDefect (s : State) (d : Defect) : Bool :=
  let site := d.isle * 169 + d.site
  match d.kind with
  | 1 => fget 0 s.siteFail site != 0
  | 2 => (s.arr (site * 64 + d.element % 64)).state == 4
  | 6 => (s.reg (rIsle d.isle (0x8D0 + d.element / 32))).getLsbD (d.element % 32)
  | 7 => s.fld (rIsle d.isle (0x8F0 + d.element)) 15 14 == 1
  | 8 => s.isleFail.contains d.isle
  | _ => false

/-- The spare columns in effect: the physical columns of a row outside the grid. -/
def State.spareNow (s : State) : List (List Nat) :=
  (List.range 8).map (fun row => (List.range 10).filter (fun k => (s.logicalIsle (row * 10 + k)).isNone))

/-- The columns whose margin is below `RETIRE` after the initial trim of the self-test (R70). -/
def State.weakColumns (s : State) (x : ArrSweep) : List Defect :=
  let k := (x.isle * 169 + x.site) * 64 + x.arr
  let least := Nat.max (s.fld (rIsle x.isle 0x801) 21 16) 4
  ((s.arr k).cols.filter (fun c => decide (c.2.margin < least))).map (fun c =>
    { kind := 3, cause := 0, isle := x.isle, site := x.site, element := x.arr + 64 * c.1 })

/-- The margins of the initial trim (R70): those of the arrays listed; the others measure the full margin. -/
def State.firstSweep (s : State) (sweeps : List ArrSweep) : State :=
  sweeps.foldl (fun (s : State) x =>
    if x.isle < 80 ∧ x.site < 169 ∧ x.arr < 50 then
      s.updArr ((x.isle * 169 + x.site) * 64 + x.arr) (fun a =>
        { (a.sweep (s.fld (rIsle x.isle 0x801) 5 0) x.levels).closeRound with measured := [] })
    else s) s

/-- `TESTING_COMPLETE` (R423, R424, R70): a cold start's self-test finds defects, which are merged and appended to the repair log; a warm restart
finds only columns to map. The grid forms, or the device fails with the row. -/
def execTestingComplete (test : SelfTest) (s : State) : Res :=
  if s.devState ≠ 4 then .next s
  else
    let s := s.firstSweep test.sweeps
    let found := test.found ++ ((test.sweeps.filter (fun x => decide (x.isle < 80) && decide (x.site < 169) && decide (x.arr < 50))).map s.weakColumns).flatten
    let take := (if s.coldStart then found else found.filter (fun d => d.kind == 3)).filter (fun d => !s.knownDefect d)
    let s := take.foldl (fun (s : State) d => s.repLog { d with cause := 0 }) s
    match s.merge take s.spareNow with
    | (s, some row) => .next (s.fail 6 row)
    | (s, none) =>
      let s := (List.range 80).foldl (fun (s : State) i =>
        if s.exposed i then s.repEvent i 3 2 15 255 (s.retRow i) else s) s
      let s := (List.range 8).foldl (fun (s : State) row =>
        if s.rowSpares row = [] then s.repEvent (row * 10) 6 2 15 255 row else s) s
      .next (s.enter 5)

/-- `MAPPED_COMPLETE` (R415): the request table is cleared and the scheduler is ready. -/
def execMappedComplete (s : State) : Res :=
  if s.devState = 5 ∧ s.schUp then .next ({ s with reqs := [] }.enter 6) else .next s

/-- The limit of a start state in milliseconds (Table 15-1). -/
def stateLimit (st : Nat) : Nat := [0, 200, 5000, 3000, 90000, 2000].getD st 0

/-- `STATE_LIMIT_EXCEEDED` (R415): a start state has lasted longer than its limit. -/
def execStateLimitExceeded (s : State) : Res :=
  let st := s.devState
  if 1 ≤ st ∧ st ≤ 5 ∧ s.regN (rSys (0x10 + st)) + stateLimit st < (s.cyc - s.startCyc) / 1200000 then .next (s.fail 7 st) else .next s

/-! ## PLLs (R428) -/

/-- A loss of lock: alarm and count. -/
def State.pllLost (s : State) (isle : Nat) : State :=
  (s.satFld (rSys 4) 31 24 1).alarm 5 { cls := 0, source := 80, reg := 4, isle := isle }

/-- `PLL_LOCK_LOSS` (R428). -/
def execPllLockLoss (pll : Pll) (s : State) : Res :=
  if s.devState = 0 then .next s
  else
    match pll with
    | .isle i => if 80 ≤ i then .next s else .next (((s.pllLost i).setFld (rSys 4) 12 6 i).failIsle i 1)
    | .west => .next { (((s.pllLost 255).setFld (rSys 4) 2 2 0).pfFlr) with linkUp := false }
    | .east =>
      let s := ((s.pllLost 255).setFld (rSys 4) 3 3 0).portsLost
      .next (if s.devState = 10 then s else s.trainPorts)
    | .north => .next (((s.pllLost 255).setFld (rSys 4) 4 4 0).fail 8 0)
    | .south => .next (((s.pllLost 255).setFld (rSys 4) 5 5 0).fail 8 0)

/-- `REFERENCE_CLOCK_LOSS` (R428): `REF_LOST` where the device can. -/
def execReferenceClockLoss (s : State) : Res := .next ((s.orReg (rSys 4) 2).setFld (rSys 4) 0 0 0)

end Sys2Proof.Machine
end

