-- ==== Sys2Proof/Machine/Thermal.lean ====
section
/-!
DEFINITION. Thermal management (17_thermal.md R461 to R479): sensors, thresholds, duties, forecasts, heat parking, shutdown, coolant.
Temperatures are whole numbers of 0.125 degrees.
-/
namespace Sys2Proof.Machine

/-! ## Events and sensors -/

/-- An event of `THM_EVENT` (R479): the isle, A the sensor. -/
def State.thmEvent (s : State) (bit cls isle a b : Nat) : State :=
  (s.orReg (rThm 0x10) (2 ^ bit)).log { cls := cls, source := 84, bit := bit, reg := 0x10, isle := isle, a := a, b := b }

def State.heatOf (s : State) (isle : Nat) : Heat := fget {} s.heat isle
def State.updHeat (s : State) (isle : Nat) (f : Heat → Heat) : State := { s with heat := fset {} s.heat isle (f (s.heatOf isle)) }

/-- A sensor's register, state and the sensor a spare stands for (Table 17-12). -/
def rSensor (isle n : Nat) : Nat := rIsle isle (0x8F0 + n)
def State.senState (s : State) (isle n : Nat) : Nat := s.fld (rSensor isle n) 15 14
def State.senMapped (s : State) (isle n : Nat) : Nat := s.fld (rSensor isle n) 21 16

/-- A sensor's layer (Table 17-1): 0 logic, 1 array, 2 cabinet. -/
def senLayer (n : Nat) : Nat := if n < 24 ∨ n = 32 ∨ n = 33 then 0 else if n < 28 ∨ n = 34 then 1 else 2

/-- Is a sensor in service (R462)? -/
def State.inService (s : State) (isle n : Nat) : Bool :=
  let st := s.senState isle n
  if st = 1 then
    (if n < 32 then (List.range 4).all (fun k => s.senMapped isle (32 + k) != n) else s.senMapped isle n != 63)
  else st == 0 || st == 3

/-- A temperature as its register holds it, and back. -/
def tempCode (t : Int) : Nat := (t % 4096).toNat
def codeTemp (c : Nat) : Int := if c < 2048 then (c : Int) else (c : Int) - 4096

/-- 106.0 degrees, what a broken sensor reports. -/
def brokenTemp : Int := 848

/-- The isle controller maps the spare that the sensor map names for a broken sensor (R466 items 2 and 3). -/
def State.mapSensor (s : State) (isle n : Nat) : State :=
  if s.icUp isle = false then s.updHeat isle (fun h => { h with unmapped := h.unmapped ++ [n] })
  else
    match fget 0 (s.heatOf isle).spareOf n with
    | 0 => s.thmEvent 4 1 isle n 0
    | sp + 1 =>
      if n < 32 ∧ s.senState isle sp = 2 ∧ fget 0 (s.heatOf isle).mapping sp = 0 then
        s.updHeat isle (fun h => { h with mapping := fset 0 h.mapping sp (n + 1) })
      else s.thmEvent 4 1 isle n 0

/-- A sensor becomes broken (R465, R466). A free spare that breaks has no sensor to replace, but one that was on its way leaves its sensor
without a spare. -/
def State.breakSensor (s : State) (isle n : Nat) : State :=
  let st := s.senState isle n
  if st = 1 then s
  else
    let s := (s.setFld (rSensor isle n) 15 14 1).thmEvent 2 2 isle n 0
    let s := s.repLog { kind := 7, cause := 1, isle := isle, site := 255, element := n }
    if st = 2 then
      match fget 0 (s.heatOf isle).mapping n with
      | 0 => s
      | m + 1 => (s.updHeat isle (fun h => { h with mapping := fset 0 h.mapping n 0 })).thmEvent 4 1 isle m 0
    else s.mapSensor isle n

/-- What waited for the isle controller (R466). -/
def State.mapWaiting (s : State) (isle : Nat) : State :=
  let l := (s.heatOf isle).unmapped
  l.foldl (fun s n => s.mapSensor isle n) (s.updHeat isle (fun h => { h with unmapped := [] }))

/-! ## Samples (R463 to R465, R467) -/

/-- The samples kept: those younger than 10 s, and one older. -/
def keepHist (now : Nat) : List (Nat × List Int) → List (Nat × List Int)
  | [] => []
  | x :: xs => if x.1 + 10000000000 ≤ now then [x] else x :: keepHist now xs

/-- The change of a sensor's reading over the samples kept. -/
def swing (l : List (Nat × List Int)) (n : Nat) : Int :=
  let v := l.map (fun x => x.2.getD n 0)
  match v with
  | [] => 0
  | a :: as => as.foldl max a - as.foldl min a

/-- Is a sensor stuck (R465 item 3)? -/
def State.stuck (s : State) (isle : Nat) (l : List (Nat × List Int)) (n : Nat) : Bool :=
  decide (swing l n < 1) &&
    (List.range 36).any (fun m => m != n && s.inService isle m && s.senState isle m != 1 && senLayer m == senLayer n && decide (16 ≤ swing l m))

/-- The largest value among the in-service sensors of an isle that meet a condition. -/
def State.maxTemp (s : State) (isle : Nat) (p : Nat → Bool) : Option Int :=
  (((List.range 36).filter (fun n => p n && s.inService isle n)).map (fun n => codeTemp (s.fld (rSensor isle n) 11 0))).max?

/-- The device's maxima (Tables 17-5 and 17-6), over the isles that have been sampled. -/
def State.devMaxima (s : State) : State :=
  let isles := (List.range 80).filter (fun i => (s.heatOf i).hist != [])
  let top := isles.foldl (fun (b : Option (Int × Nat)) i =>
    let t := codeTemp (s.fld (rThm (0x100 + i)) 11 0)
    match b with
    | some (u, j) => if u < t then some (t, i) else some (u, j)
    | none => some (t, i)) none
  let layer (k : Nat) : Nat := match (isles.filterMap (fun i => s.maxTemp i (fun n => senLayer n == k))).max? with
    | some t => tempCode t
    | none => 0
  match top with
  | none => s
  | some (t, i) => ((s.setRegN (rThm 0) (tempCode t + 4096 * i)).setRegN (rThm 1) (layer 0 + 65536 * layer 1)).setRegN (rThm 2) (layer 2)

/-- The hardware thermal shutdown (R471): every isolation switch opens, what the isles held is lost, the ports go down, sensors are read at
1 kHz. -/
def State.thermalShutdown (s : State) (isle sensor : Nat) : State :=
  let s := s.alarm 1 { cls := 0, source := 84, reg := 0x100 + isle, isle := isle, a := sensor }
  let s := (List.range 80).foldl (fun (s : State) i =>
    let s := s.setFld (rThm (0x100 + i)) 25 24 0
    if s.isleState i = 4 ∨ s.isleState i = 5 then s else s.setIsleState i 0) s
  let s := (List.range 8).foldl (fun (s : State) p => if (s.part p).loaded then s.haltPart p else s) s
  ({ s with mem := [], loads := [] }.portsLost).enter 10

/-- The thermal states of an isle from its reported temperature (R467, R468 item 1). -/
def State.thresholds (s : State) (isle : Nat) (t : Int) : State :=
  let r := rThm (0x100 + isle)
  let warn := s.fld r 12 12 == 1
  let thr := s.fld r 13 13 == 1
  let s := (s.setFld r 11 0 (tempCode t)).setFld r 25 24 (if t < 720 ∨ s.devState = 10 then 0 else if t ≤ 800 then 1 else 2)
  let s := if !warn && decide (760 ≤ t) then (s.setFld r 12 12 1).thmEvent 0 2 isle 255 0 else if warn && decide (t < 720) then s.setFld r 12 12 0 else s
  let s :=
    if !thr && decide (840 ≤ t) then
      let h := Nat.max 4 (s.fld r 19 15)
      (((s.setFld r 13 13 1).setFld r 19 15 h).satFld (rThm (0x200 + isle)) 27 12 1).thmEvent 1 2 isle 255 0
    else if thr && decide (t < 808) then s.setFld r 13 13 0 else s
  s.updHeat isle (fun h => { h with coolAt := if t < 720 then (match h.coolAt with
                                                                | some x => some x
                                                                | none => some s.now) else none })

/-- `SENSOR_SAMPLE` (R463 to R467, R471): all 36 sensors of an isle are read; those whose switch on the always-on feed is open are not. The
thresholds act on in-service sensors. -/
def execSensorSample (isle : Nat) (readings : List Int) (s : State) : Res :=
  if 80 ≤ isle ∨ readings.length ≠ 36 ∨ s.devState = 0 ∨ s.pw.vsOff.contains isle then .next s
  else
    let value (n : Nat) : Int := if s.senState isle n = 1 then brokenTemp else readings.getD n 0
    let hot := (List.range 36).filter (fun n => s.senState isle n != 1 && s.inService isle n && decide (944 ≤ readings.getD n 0))
    let twice := hot.find? (fun n => (s.heatOf isle).hot.contains n)
    let hist := keepHist s.now ((s.now, readings) :: (s.heatOf isle).hist)
    let full := match hist.getLast? with
      | some x => decide (x.1 + 10000000000 ≤ s.now)
      | none => false
    let s := (List.range 36).foldl (fun (s : State) n => s.setFld (rSensor isle n) 11 0 (tempCode (value n))) s
    let s := s.updHeat isle (fun h => { h with hist := hist, hot := hot })
    let s := match s.maxTemp isle (fun _ => true) with
      | some t => s.thresholds isle t
      | none => s
    let out := (List.range 36).filter (fun n => s.senState isle n != 1 &&
      (decide (readings.getD n 0 < -320) || decide (1200 < readings.getD n 0) || (full && s.inService isle n && s.stuck isle hist n)))
    let s := out.foldl (fun (s : State) n => s.breakSensor isle n) s
    let s := if s.icUp isle ∧ (s.heatOf isle).unmapped ≠ [] then s.mapWaiting isle else s
    let s := s.devMaxima
    match s.devState, twice with
    | 10, _ =>
      match s.pw.heldReset with
      | some src => .next (if s.isCool then s.coldRestart 4 src else s)
      | none => .next s
    | _, some n => .next (s.thermalShutdown isle n)
    | _, none => .next s

/-- `SENSOR_SELF_CHECK` (R465 item 1). -/
def execSensorSelfCheck (isle : Nat) (failed : List Nat) (s : State) : Res :=
  if 80 ≤ isle ∨ s.devState = 0 ∨ s.pw.vsOff.contains isle then .next s
  else .next ((failed.filter (fun n => decide (n < 36))).foldl (fun s n => s.breakSensor isle n) s)

/-- `SENSOR_SPARE_MAPPED` (R466 item 2): the spare's first sample; an invalid one breaks the spare. -/
def execSensorSpareMapped (isle spare : Nat) (reading : Int) (s : State) : Res :=
  match fget 0 (s.heatOf isle).mapping spare with
  | 0 => .next s
  | n + 1 =>
    if s.icUp isle = false then .next s
    else if reading < -320 ∨ 1200 < reading then .next (s.breakSensor isle spare)
    else
      let r := rSensor isle spare
      let s := ((s.setFld r 11 0 (tempCode reading)).setFld r 15 14 3).setFld r 21 16 n
      .next ((s.updHeat isle (fun h => { h with mapping := fset 0 h.mapping spare 0 })).thmEvent 3 3 isle n spare)

/-! ## Duties (R468, R469) -/

/-- `HW_DUTY_TICK` (R468): 1 ms of an isle. -/
def execHwDutyTick (isle : Nat) (s : State) : Res :=
  if 80 ≤ isle then .next s
  else
    let r := rThm (0x100 + isle)
    let h := s.fld r 19 15
    let t := codeTemp (s.fld r 11 0)
    let h' := if s.fld r 13 13 = 1 then (if 840 ≤ t then Nat.min 16 (h + 1) else h) else h - 1
    let s := s.setFld r 19 15 h'
    .next (s.updHeat isle (fun x => { x with fullAt := if h' = 16 then (match x.fullAt with
                                                                        | some a => some a
                                                                        | none => some s.now) else none }))

/-- `THERMAL_FORECAST` (R469): the model's forecasts of the powered isles, and the forecast duties they give; `FTHR` is a temperature, two's
complement (R478). -/
def execThermalForecast (fs : List (Nat × Int)) (s : State) : Res :=
  if s.pwcUp = false then .next s
  else
    let thr : Int := min (codeTemp (s.fld (rThm 8) 19 8)) 832
    .next ((fs.filter (fun f => decide (f.1 < 80) && (s.isleState f.1 == 2 || s.isleState f.1 == 3))).foldl (fun (s : State) f =>
      let r := rThm (0x100 + f.1)
      let p := s.fld r 23 20
      let p' := if thr ≤ f.2 then Nat.min 12 (p + 1) else if f.2 < thr - 32 then p - 1 else p
      (s.setFld (rThm (0x200 + f.1)) 11 0 (tempCode f.2)).setFld r 23 20 p') s)

/-! ## Heat parking (R470, R472) -/

/-- `HEAT_PARK` (R472, R457): h at 16 for 50 ms with 101.0 degrees or more, or a throttled isle that no partition touches. An isle that waits to
switch on stays off. -/
def execHeatPark (isle : Nat) (s : State) : Res :=
  let r := rThm (0x100 + isle)
  let t := codeTemp (s.fld r 11 0)
  let long := match (s.heatOf isle).fullAt with
    | some a => decide (a + 50000000 ≤ s.now) && decide (808 ≤ t)
    | none => false
  let alone := (s.partOfPhys isle).isNone && s.fld r 13 13 == 1
  let st := s.isleState isle
  if 80 ≤ isle ∨ s.pwcUp = false ∨ s.fld r 14 14 = 1 ∨ (long = false ∧ alone = false) ∨ st = 0 ∨ st = 4 ∨ st = 5 then .next s
  else
    let s := (s.setFld r 14 14 1).thmEvent 6 1 isle 255 0
    let s := s.abortLoad isle
    if st = 6 then
      let s' := { s with pw := { s.pw with wait := ferase s.pw.wait isle, longWait := s.pw.longWait.filter (· != isle) } }
      .next (if s.pw.unpark.contains isle then s'.parkIsle isle else s'.setIsleState isle 0)
    else .next (s.parkIsle isle)

/-- `HEAT_UNPARK` (R472): below 90.0 degrees for 100 ms; a host request keeps the isle parked. -/
def execHeatUnpark (isle : Nat) (s : State) : Res :=
  let r := rThm (0x100 + isle)
  let cool := match (s.heatOf isle).coolAt with
    | some a => decide (a + 100000000 ≤ s.now)
    | none => false
  if 80 ≤ isle ∨ s.pwcUp = false ∨ s.fld r 14 14 = 0 ∨ cool = false then .next s
  else
    let s := s.setFld r 14 14 0
    if s.isleState isle = 0 then .next (s.switchOn isle false)
    else if s.isleState isle = 3 ∧ s.fld (rPwr (0x300 + isle)) 0 0 = 0 then .next (s.switchOn isle true)
    else .next s

/-! ## Coolant (R476) -/

/-- `COOLANT_SAMPLE` (R476): a condition out of range for 1 s raises `COOLANT`, at most once a minute while it lasts. -/
def execCoolantSample (inlet outlet flow : Nat) (inRange : Bool) (s : State) : Res :=
  if s.devState = 0 then .next s
  else
    let s := s.setRegN (rThm 4) (inlet % 1024 + outlet % 1024 * 2 ^ 10 + flow % 1024 * 2 ^ 20)
    let bad := decide (inlet < 120) || decide (280 < inlet) || decide (flow < 400) || !inRange
    if !bad then .next { s with pw := { s.pw with coolBad := none, coolWarn := none } }
    else
      let t0 := s.pw.coolBad.getD s.now
      let s := { s with pw := { s.pw with coolBad := some t0 } }
      let due : Bool := match s.pw.coolWarn with
        | some w => decide (w + 60000000000 ≤ s.now)
        | none => true
      if t0 + 1000000000 ≤ s.now ∧ due = true then .next ({ s with pw := { s.pw with coolWarn := some s.now } }.thmEvent 5 2 255 255 0)
      else .next s

end Sys2Proof.Machine
end

