-- ==== Sys2Proof/Machine/Repair.lean ====
section
/-!
DEFINITION. Runtime failures, recovery and the repair log (18_defects_spares_aging.md R480 to R496).
-/
namespace Sys2Proof.Machine

/-! ## Recovery of cores (R487 to R491) -/

/-- Every group in flight of a partition is voided: each request's position goes back to the first position of its oldest voided group (R490 step 1,
R491). -/
def State.voidGroups (s : State) (p : Nat) : State :=
  let gs := (s.part p).groups
  let s := gs.reverse.foldl (fun (s : State) g => s.updReq g.entry (fun r => { r with pos := g.pos0 })) (s.recallSheet p)
  s.updPart p (fun q => { q with groups := [], words := [], history := [] })

/-- A repair in progress (R493): a recovery that does not wait for a command, a failed isle whose end is due, a resupply. -/
def State.repairing (s : State) : Bool :=
  s.isleDue != [] || s.resup.isSome || (List.range 8).any (fun p => match (s.part p).recovery with
    | some r => r.step != 0
    | none => false)

/-- A recovery of a partition begins, or begins its planning anew with one more failure (R495); `step` 0 waits for a command. -/
def State.startRecovery (s : State) (p isle site step : Nat) (lost : Bool) : State :=
  let s := (s.haltPart p).voidGroups p
  let was := match (s.part p).recovery with
    | some r => r.lost
    | none => false
  let r : Recovery := { isle := isle, site := site, step := step, lost := lost || was }
  (s.updPart p (fun q => { q with recovery := some r })).repStat (if step = 0 then 7 else 1) step p isle

/-- A core site fails (R487, R481, R489, R490): `cause` the item, or 7 for a command. A site that carries no core is only marked; cores of an isle outside
every partition move at once where automatic sparing is on; an unabsorbable failure fails the isle. -/
def State.failSite (s : State) (isle site cause : Nat) (auto : Bool) : State :=
  let k := isle * 169 + site
  let core := s.coreAt isle site
  let part := core.bind s.partOf
  let moves := s.logicalIsle isle
  let s := { s with siteFail := fset 0 s.siteFail k cause, siteCand := s.siteCand.filter (· != k) }
  let s := if cause = 3 then s.satFld (rSite k 0x921) 20 13 1 else s
  let s := s.repAlarm isle 1 (part.getD 15) site cause
  let s := s.repLog { kind := 1, cause := if cause = 7 then 3 else 1, isle := isle, site := site, element := 0 }
  let s := s.abortLoad isle
  let s := if s.exposed isle && s.absorbable isle && part.isNone then s.repEvent isle 3 2 15 255 (s.retRow isle) else s
  match core, moves with
  | none, _ => if s.absorbable isle then s else s.failIsle isle 1
  | some _, none => s
  | some _, some l =>
    if s.absorbable isle = false then
      let s := match part with
        | some p => s.updPart p (fun q => { q with recovery := none })
        | none => s
      s.failIsle isle 1
    else
      match part with
      | some p => s.startRecovery p isle site (if auto then 2 else 0) (cause == 5)
      | none => if auto then s.moveCores (s.coreMoves l) else s.repStat 7 0 0 isle

/-- `CORE_FAILED` (R487 to R490). -/
def execCoreFailed (isle site item : Nat) (s : State) : Res :=
  if 80 ≤ isle ∨ 169 ≤ site ∨ item = 0 ∨ 5 < item ∨ fget 0 s.siteFail (isle * 169 + site) ≠ 0 ∨ s.isleFail.contains isle then .next s
  else .next (s.failSite isle site item (s.fld (rSys 0x40) 0 0 == 1))

/-- The requests whose drawers, drawer map or sampling record lie in a core's slice (R492 item 1, R153, R352). -/
def State.requestsIn (s : State) (p : Nat) (c : CoreId) : List Nat :=
  let r := s.coreRec c
  if r.asgs = [] ∧ r.sampBase = 0xFFFFFFFF then [] else (s.partReqs p).filter (fun e => (s.req e).state == 2 || (s.req e).state == 3)

/-- The bytes of a staging that have arrived are written again to the inactive slots of cores whose slices are other ones now (Table 11-5). -/
def State.restage (s : State) (p : Nat) (cores : List CoreId) : State :=
  let q := s.part p
  match q.staging with
  | none => s
  | some st => (q.dir.filter (fun r => cores.contains (s.dirCore q r.1))).foldl (fun s r =>
      s.bgWrite (s.dirCore q r.1) (r.2.slotBase (1 - q.liveSlot)) ((st.img.drop (wimgRec st.img r.1).1).take (wimgHave st.img r.1))) s

/-- A weight operation other than a staging ends with `ABANDONED`; a staging goes on for the other cores (Table 11-5). -/
def State.dropSwap (s : State) (p : Nat) : State := if (s.part p).staging.isSome then s else (s.dropWeightOp p).updPart p (fun q => { q with other := 0, otag := 0 })

/-- The slice of a core is lost (R492 items 1 and 2): a swap in its hold goes back to the live slot, which the host then supplies. -/
def State.loseSlice (s : State) (p : Nat) (c : CoreId) (isle site : Nat) : State :=
  let es := s.requestsIn p c
  let s := es.foldl (fun (s : State) e => s.endNow e 0x0B) s
  let s := { s with mem := s.mem.filter (fun x => !(waSpace x.1 == spCabinet && waCore x.1 == c)) }
  let s := match (s.part p).wop with
    | some w => if 3 ≤ w.step then s.revert p (s.dirIdx (s.part p) c) else s.dropSwap p
    | none => s.dropSwap p
  s.repAlarm isle 4 p site 0

/-- `RECOVERY_PLANNED` (R490 step 2): the new map is planned and the spare sites are swept; the copies begin. A lost slice cannot be copied. -/
def execRecoveryPlanned (part : Nat) (s : State) : Res :=
  match (s.part part).recovery with
  | none => .next s
  | some r =>
    if r.step ≠ 2 ∨ s.icUp r.isle = false ∨ (r.lost ∧ s.schUp = false) then .next s
    else
      let moves := match s.logicalIsle r.isle with
        | some l => s.coreMoves l
        | none => []
      let dead (m : CoreId × Nat × Nat) : Bool := fget 0 s.siteFail (r.isle * 169 + m.2.1) == 5
      let s := if r.lost then (moves.filter dead).foldl (fun (s : State) m => s.loseSlice part m.1 r.isle m.2.1) s else s
      .next ((s.updPart part (fun q => { q with recovery := some { r with step := 3, moved := moves } })).repStat (if r.lost then 3 else 1) 3 part r.isle)

/-- The moves of a recovery take effect and the partition is to be reprogrammed (R490 step 4). -/
def State.copied (s : State) (p : Nat) (r : Recovery) : State :=
  ((s.moveCores r.moved).updPart p (fun q => { q with recovery := some { r with step := 4, lost := false } })).repStat 1 4 p r.isle

/-- `RECOVERY_COPY_DONE` (R490 step 3): the regions of the moved cores are copied and verified. With a slice lost, the recovery waits for
`RESUPPLY`. -/
def execRecoveryCopyDone (part : Nat) (s : State) : Res :=
  match (s.part part).recovery with
  | none => .next s
  | some r => if r.step ≠ 3 ∨ r.lost ∨ s.icUp r.isle = false then .next s else .next (s.copied part r)

/-- `RECOVERY_REPROGRAMMED` (R490 step 4, R432): step 9 of R215 from the layout image, the free lists kept; a failed read ends the recovery. -/
def execRecoveryReprogrammed (part : Nat) (image : Option Bytes) (s : State) : Res :=
  match (s.part part).recovery with
  | none => .next s
  | some r =>
    if r.step ≠ 4 ∨ s.icUp r.isle = false then .next s
    else
      match s.dma 0 image with
      | none => .next ((s.updPart part (fun q => { q with recovery := none })).loadStat part 0x13 0 4)
      | some img =>
        let s := s.program part img false
        .next ((s.updPart part (fun q => { q with recovery := some { r with step := 5 }, halted := true })).repStat 1 5 part r.isle)

/-- `RECOVERY_REWRITE_DONE` (R490 steps 5 and 6, R491, R495): the arrays of the moved cores are rewritten, from the source slot during a swap's hold;
the root pulses `START`, or the hold goes on. A source slot with an uncorrectable line sends the swap back to its old live slot (Table 11-5). -/
def execRecoveryRewriteDone (part : Nat) (s : State) : Res :=
  match (s.part part).recovery with
  | none => .next s
  | some r =>
    if r.step ≠ 5 ∨ s.schUp = false ∨ s.icUp r.isle = false then .next s
    else
      let q := s.part part
      let hold := match q.wop with
        | some w => decide (3 ≤ w.step)
        | none => false
      let slot := if hold then q.sourceSlot else q.liveSlot
      let fails (m : CoreId × Nat × Nat) : Bool := hold && slot != q.liveSlot && s.slotBad m.1 slot (s.afmtOfSlot m.1 slot)
      let s := match r.moved.find? fails with
        | some m => s.revert part (s.dirIdx q m.1)
        | none => r.moved.foldl (fun (s : State) (m : CoreId × Nat × Nat) => s.rewriteCore m.1 slot (s.afmtOfSlot m.1 slot)) s
      let s := s.updPart part (fun q => { q with recovery := none })
      let s := (s.repEvent r.isle 2 3 part r.site 0).repStat 2 0 part r.isle
      let s := if s.exposed r.isle then s.repEvent r.isle 3 2 part 255 (s.retRow r.isle) else s
      if hold then
        (match (s.part part).wop with
         | some w => .next (if w.step = 5 then s.switchLive part else s)
         | none => .next s)
      else if q.liveValid then .next (s.startPulse part)
      else .next (s.updPart part (fun q => { q with halted := false }))

/-! ## Isles (R484) -/

/-- R484 for a failed isle of a partition: its requests end; a usable spare, once it is on, takes its place and the layout is programmed again;
without one the partition stays halted. `take` says whether a spare may be taken. -/
def State.retireIsle (s : State) (isle : Nat) (image : Option Bytes) (take : Bool) : State :=
  let done (s : State) : State := { s with isleDue := s.isleDue.filter (· != isle) }
  match s.partOfPhys isle with
  | none => done s
  | some p =>
    let s := s.updPart p (fun q => { q with recovery := none })
    let s := ((s.haltPart p).dropSwap p).endAll p 0x0B
    match s.findSpare isle with
    | none => ((done s).repStat 4 0 p isle).repEvent isle 7 1 p 255 0
    | some sp =>
      if take = false then (done s).repStat 7 0 p isle
      else
        let s := if s.isleState sp = 0 ∨ s.isleState sp = 3 then s.switchOn sp (s.isleState sp == 3) else s
        if s.isleState sp ≠ 2 then s.repStat 1 0 p isle
        else
          let s := done (s.shiftIsles isle sp)
          let s := s.repEvent isle 5 3 p 255 sp
          let s := if s.rowSpares (isle / 10) = [] then s.repEvent isle 6 2 15 255 (isle / 10) else s
          let s := s.updPart p (fun q =>
            { q with liveValid := false, liveSlot := if q.staging.isSome then q.liveSlot else 0, tag := 0, other := if q.staging.isSome then 1 else 0, otag := 0 })
          let s := s.restage p (s.partCores (s.part p))
          match s.dma 0 image with
          | none => (s.loadStat p 0x13 0 4).repStat 2 0 p isle
          | some img =>
            ((s.program p img true).updPart p (fun q => { q with halted := false })).repStat 2 0 p isle

/-- `ISLE_FAILED` (R484). -/
def execIsleFailed (isle : Nat) (image : Option Bytes) (s : State) : Res :=
  if s.isleDue.contains isle = false ∨ s.schUp = false then .next s
  else .next (s.retireIsle isle image (s.fld (rSys 0x40) 1 1 == 1))

/-! ## Commands (R493, R494) -/

/-- The states in which `SYS_REP_CTL` takes no write: Off (R371) and Shutdown (R471). -/
def State.repClosed (s : State) : Bool := s.devState == 0 || s.devState == 10

/-- A repair command that does not apply. -/
def State.repRefused (s : State) (isle : Nat) : State := s.repStat 6 0 0 isle

/-- `CORE_REPAIR` (R493 item 1): a failed site that waits, or a candidate site. -/
def execCoreRepair (isle site : Nat) (s : State) : Res :=
  let k := isle * 169 + site
  if s.repClosed then .next s
  else if 80 ≤ isle ∨ 169 ≤ site ∨ s.repairing then .next (s.repRefused isle)
  else if s.siteCand.contains k then .next (s.failSite isle site 7 true)
  else
    let waits := (List.range 8).find? (fun p => (s.part p).recovery.any (fun r => r.step == 0 && r.isle == isle))
    match waits with
    | some p =>
      (match (s.part p).recovery with
       | some r => .next ((s.updPart p (fun q => { q with recovery := some { r with step := 2 } })).repStat 1 2 p isle)
       | none => .next s)
    | none =>
      match s.logicalIsle isle with
      | some l =>
        if fget 0 s.siteFail k ≠ 0 ∧ (s.partOfIsle l).isNone ∧ s.coreMoves l ≠ [] then .next ((s.moveCores (s.coreMoves l)).repStat 2 0 0 isle)
        else .next (s.repRefused isle)
      | none => .next (s.repRefused isle)

/-- `ISLE_RETIREMENT` (R493 item 2, R485 item 4, R488): the isle is retired under R484, or the retirement that waits is carried out. -/
def execIsleRetirement (isle : Nat) (image : Option Bytes) (s : State) : Res :=
  if s.repClosed then .next s
  else if 80 ≤ isle ∨ (s.repairing ∧ s.isleDue.contains isle = false) then .next (s.repRefused isle)
  else if s.isleFail.contains isle then
    (if (s.partOfPhys isle).isSome then .next (s.retireIsle isle image true) else .next (s.repRefused isle))
  else
    let s := s.failIsle isle 3
    if s.isleDue.contains isle then .next (s.retireIsle isle image true) else .next (s.repStat 2 0 0 isle)

/-- Does an image match a partition's live version: the checks of Table 11-3 and the live `TAG` (R492 item 4)? -/
def State.liveImage (s : State) (p : Nat) (img : Bytes) : Bool :=
  let q := s.part p
  let cores := q.rows * q.cols * 144
  (s.wimgHeader q (img.take 256)).isNone && decide (wimgLen img ≤ img.length) && wimgTag img == q.tag &&
    (List.range cores).all (fun i => recordOk (fget {} q.dir i : CoreRec).masterLen (wimgRec img i)) &&
    Sha.sha256 ((img.take (wimgLen img)).drop 128) == wimgDigest img

/-- The bytes of a core in a weight image. -/
def coreWeights (img : Bytes) (i : Nat) : Bytes := let r := wimgRec img i; (img.drop r.1).take r.2.1

/-- `RESUPPLY` (R492 to R494): within a recovery that waits for it, the lost slice's live slot is written and the recovery goes on; outside one, the
core's live slot is written again in the background. -/
def execResupply (isle site : Nat) (image : Option Bytes) (s : State) : Res :=
  let waits := (List.range 8).find? (fun p => (s.part p).recovery.any (fun r => r.step == 3 && r.lost))
  if s.repClosed then .next s
  else
  match waits with
  | some p =>
    (match (s.part p).recovery, s.dma 0 image with
     | some r, some img =>
       if s.liveImage p img = false then .next (s.repStat (if wimgTag img = (s.part p).tag then 6 else 5) 3 p r.isle)
       else
         let q := s.part p
         let dead (m : CoreId × Nat × Nat) : Bool := fget 0 s.siteFail (r.isle * 169 + m.2.1) == 5
         let s := s.copied p r
         let s := s.restage p ((r.moved.filter dead).map (·.1))
         .next ((r.moved.filter dead).foldl (fun (s : State) m =>
           s.wr (wa spCabinet m.1 ((s.coreRec m.1).slotBase q.liveSlot)) (coreWeights img (s.dirIdx q m.1))) s)
     | some r, none => .next (s.repStat 6 3 p r.isle)
     | none, _ => .next s)
  | none =>
    match s.coreAt isle site with
    | none => .next (s.repRefused isle)
    | some c =>
      match s.partOf c, s.dma 0 image with
      | some p, some img =>
        let q := s.part p
        if s.repairing ∨ q.busy ∨ q.liveValid = false then .next (s.repRefused isle)
        else if s.liveImage p img = false then .next (s.repStat (if wimgTag img = q.tag then 6 else 5) 0 p isle)
        else
          .next ({ s.bgWrite c ((s.coreRec c).slotBase q.liveSlot) (coreWeights img (s.dirIdx q c)) with resup := some c }.repStat 1 0 p isle)
      | _, _ => .next (s.repRefused isle)

/-- `RESUPPLY_DONE` (R494, Table 11-5): every line of the live slot has been written; the windows that could not be read before raise no more faults. -/
def execResupplyDone (isle site : Nat) (s : State) : Res :=
  match s.resup with
  | none => .next s
  | some c =>
    if s.coreAt isle site ≠ some c ∨ s.writesWait c then .next s
    else
      let s := (List.range 48).foldl (fun s n => s.updArr (s.arrKey c n) (fun a => { a with badWin := [] })) s
      .next ({ s with resup := none }.repStat 2 0 ((s.partOf c).getD 0) isle)

/-! ## The repair log (R496) -/

/-- The record of a defect (Table 18-6). -/
def repairRecord (d : Defect) (time seq : Nat) : Bytes :=
  let b := natLe 1 d.kind ++ natLe 1 d.cause ++ natLe 1 d.isle ++ natLe 1 d.site ++ natLe 2 d.element ++ natLe 2 0 ++ natLe 8 time ++ natLe 4 seq ++
    List.replicate 8 0
  b ++ natLe 4 (crcBytes b)

/-- `REPAIR_LOG_APPEND` (R424, R496): SEC appends the oldest record that waits; with the log full the defect is used but not recorded. -/
def execRepairLogAppend (s : State) : Res :=
  match s.repairQ with
  | [] => .next s
  | (d, t) :: rest =>
    if s.secUp = false ∨ s.devState ≤ 2 then .next s
    else
      let s := { s with repairQ := rest }
      if s.repRoom = 0 then .next ((s.setFld (rSys 5) 2 2 1).log { cls := 2, source := 85, reg := 5 })
      else
        let s := { s with repRoom := s.repRoom - 1, repRecs := s.repRecs ++ [repairRecord d t (524288 - s.repRoom)] }
        .next (s.setFld (rSys 5) 31 16 (s.repRoom / 32))

end Sys2Proof.Machine
end

