-- ==== Sys2Proof/Machine/Fw.lean ====
section
/-!
DEFINITION. The firmware processors (19_firmware_and_transactions.md R498 to R505; 20_security.md R531): restarts, their limits, and what ends
or waits with them.
-/
namespace Sys2Proof.Machine

/-- A processor's number among the restarts: 0 SEC, 1 PWC, 2 SCH, 3 + i an isle controller. -/
def procKey : Proc → Nat
  | .sec => 0
  | .pwc => 1
  | .sch => 2
  | .ic i => 3 + i

/-- The status register of a processor (Table 19-4). -/
def fwReg : Proc → Nat
  | .sec => rSys 0x50
  | .pwc => rSys 0x51
  | .sch => rSys 0x52
  | .ic i => rIsle i 0x930

/-- The isle an event of a processor names. -/
def procIsle : Proc → Nat
  | .ic i => i
  | _ => 255

/-- Does a processor exist? -/
def procOk : Proc → Bool
  | .ic i => decide (i < 80)
  | _ => true

/-- An event of `SYS_FW_EVENT` (R515): A the processor. -/
def State.fwEvent (s : State) (bit cls : Nat) (p : Proc) : State :=
  let s := s.orReg (rSys 0x54) (2 ^ bit)
  let r : EvRec := { cls := cls, source := 80, bit := bit, reg := 0x54, isle := procIsle p, a := Nat.min (procKey p) 3 }
  if cls = 0 then s.alarm 3 r else s.log r

/-- What ends with a restart of a processor (Table 19-2). -/
def State.endWith (s : State) (p : Proc) : State :=
  match p with
  | .sec =>
    let s := match s.secRec with
      | some r => { s with secRec := none }.secStatus .pf (fieldN r 0 1) 0x10
      | none => s
    let s := if s.fwu.isSome then s.endUpdate false else s
    { s with sess := [], spdm := [] }.rollTx 2 7
  | .sch => (s.abortLoads).rollTx 3 7
  | .pwc => s
  | .ic i => { s with icAt := fset 0 s.icAt i (s.now + 1) }

/-- The restarts of a processor in the last 60 s. -/
def State.recent (s : State) (p : Proc) : List Nat := (fget [] s.restarts (procKey p)).filter (fun t => decide (s.now < t + 60000000000))

/-- A processor restarts (R499, R502): the fourth restart within 60 s leaves it stopped. `cause` 1 watchdog, 2 trap, 3 command; a command starts a
stopped processor afresh. -/
def State.restartProc (s : State) (p : Proc) (cause : Nat) : State :=
  let r := fwReg p
  let stopped := s.fld r 1 0 == 2
  let times := if stopped && cause == 3 then [] else s.recent p
  let times' := if stopped && cause == 3 then [] else s.now :: times
  let s := { s with restarts := fset [] s.restarts (procKey p) times' }
  let s := ((s.setFld r 3 2 cause).satFld r 31 16 1).setFld r 1 0 (if 4 ≤ times'.length then 2 else 1)
  let s := s.fwEvent (cause - 1) (if cause = 3 then 3 else 1) p
  let s := if 4 ≤ times'.length then s.fwEvent 3 0 p else s
  s.endWith p

/-- `WATCHDOG_EXPIRY` (R499 item 1). -/
def execWatchdogExpiry (proc : Proc) (s : State) : Res :=
  if procOk proc = false ∨ s.fld (fwReg proc) 1 0 ≠ 0 then .next s else .next (s.restartProc proc 1)

/-- `FIRMWARE_TRAP` (R499 item 2). -/
def execFirmwareTrap (proc : Proc) (s : State) : Res :=
  if procOk proc = false ∨ s.fld (fwReg proc) 1 0 ≠ 0 then .next s else .next (s.restartProc proc 2)

/-- `PROCESSOR_RESTART` (R499 item 3, R531): SEC reports `OK` before it restarts itself. -/
def execProcessorRestart (src : CmdSrc) (s : State) : Res :=
  match s.takeCmd src 7 with
  | (s, none) => .next s
  | (s, some r) =>
    let s := s.secStatus src 7 2
    let p : Proc := match fieldN r 24 1 with
      | 0 => .sec
      | 1 => .pwc
      | 2 => .sch
      | _ => .ic (fieldN r 25 1)
    .next (s.restartProc p 3)

/-- `PROCESSOR_RESUMED` (R499, R500): the processor runs again; what waited for the scheduler or the isle controller goes on. -/
def execProcessorResumed (proc : Proc) (s : State) : Res :=
  if procOk proc = false ∨ s.fld (fwReg proc) 1 0 ≠ 1 then .next s
  else
    let s := s.setFld (fwReg proc) 1 0 0
    match proc with
    | .sch =>
      .next ((List.range 8).foldl (fun (s : State) p => match (s.part p).wop with
        | some w => if w.step = 5 then s.switchLive p else s
        | none => s) s)
    | .ic i => .next ({ s with icAt := fset 0 s.icAt i 0 }.mapWaiting i)
    | .pwc => .next ((List.range 80).foldl State.hostPark s)
    | .sec => .next s

/-- `IC_LATE` (R501): an isle controller is not back 1 s after its restart began; a load in its step 9 that waits on the isle ends. -/
def execIcLate (isle : Nat) (s : State) : Res :=
  match fget 0 s.icAt isle with
  | 0 => .next s
  | t + 1 =>
    if s.icUp isle ∨ s.now < t + 1000000000 then .next s
    else
      let s := { s with icAt := fset 0 s.icAt isle 0 }.fwEvent 4 0 (.ic isle)
      match s.logicalIsle isle with
      | some l =>
        (match s.loadAt l with
         | some ld => .next (if ld.phase = 4 then s.abortLoad isle else s)
         | none => .next s)
      | none => .next s

end Sys2Proof.Machine
end

