-- ==== Sys2Proof/Machine/Gates.lean ====
section
/-!
DEFINITION. What the fabric carries (14_causeway_fabric.md R405 to R412): inbound data writes and counter additions, gates, forwarded entries,
words and voids, proxy messages, migrations.
-/
namespace Sys2Proof.Machine

/-! ## Admission (R405) -/

/-- Does a partition's window admit a source device (Table 14-7)? -/
def State.admits (s : State) (p src : Nat) : Bool :=
  let v := s.regN (rCwy (0x30 + 2 * p))
  decide (p < 8) && bits v 24 24 == 1 && decide (bits v 11 0 ≤ src) && decide (src ≤ bits v 23 12)

/-- Does it admit a counter? -/
def State.admitsCtr (s : State) (p ctr : Nat) : Bool :=
  let v := s.regN (rCwy (0x31 + 2 * p))
  decide (bits v 15 0 ≤ ctr) && decide (ctr < bits v 15 0 + bits v 31 16)

/-- A delivered packet is dealt with: it leaves the inbox and is acknowledged; one from the device itself returns to its owner at once. -/
def State.done (s : State) (p : Packet) : State :=
  let s := { s with fabric := { s.fabric with inbox := s.fabric.inbox.erase p } }
  if some p.src = s.nodeNum then s.acked p else s.sendAck p

/-- Packets dealt with in order. -/
def State.doneAll (s : State) (ps : List Packet) : State := ps.foldl State.done s

/-- A packet is refused: the refusal is sent and counted. -/
def State.refuse (s : State) (p : Packet) (flow : Nat) : State :=
  let s := s.satFld (rCwy 0x21) 15 0 1
  match s.nodeNum with
  | none => s
  | some me =>
    if p.src = me then s.refusedBy me p.fvc flow
    else s.route { linkPacket 0x0D (natLe 1 p.fvc ++ natLe 2 flow) [] with fvc := 1, dest := devAddr p.src, src := me }

/-- Every packet of a message is refused. -/
def State.refuseAll (s : State) (ps : List Packet) (flow : Nat) : State := (ps.foldl (fun (s : State) p => s.refuse p flow) s).doneAll ps

/-- The delivered packets of a source and kind that make up a message: the fewest, oldest first, whose payload is the given bytes. -/
def State.message (s : State) (src kind : Nat) (kd bytes : Bytes) : Option (List Packet) :=
  let ps := s.fabric.inbox.filter (fun p => p.src == src && p.kind == kind && p.kd.take kd.length == kd)
  ((List.range ps.length).map (fun k => ps.take (k + 1))).find? (fun l => (l.map (fun p => p.payload.flatten)).flatten == bytes)

/-- A field of a packet's kind data. -/
def pkN (p : Packet) (at_ n : Nat) : Nat := leNat ((p.kd.drop at_).take n)

/-! ## Data and counters (R405) -/

/-- `DATA_WRITE` (R405): the lines go to the cabinet as background claims of priority 5. -/
def execDataWrite (pkt : Packet) (s : State) : Res :=
  let a := pkt.dest % 2 ^ 48
  let c := waCore a
  let n := 64 * pkt.payload.length
  if pkt.kind ≠ 5 ∨ s.fabric.inbox.contains pkt = false then .next s
  else
    match s.partOf c with
    | none => .next (s.refuseAll [pkt] pkt.flow)
    | some p =>
      if s.admits p pkt.src = false then .next (s.refuseAll [pkt] pkt.flow)
      else if waSpace a ≠ spCabinet ∨ s.coreOk c = false ∨ waOff a % 64 ≠ 0 ∨ spaceSize spCabinet < waOff a + n then
        .fault (.unpredictable .address)
      else if n ≠ 0 ∧ s.protected_ c (waOff a) n then .fault (.unpredictable .contract)
      else .next ((s.bgWrite c (waOff a) pkt.payload.flatten).done pkt)

/-- Do cabinet writes that arrived earlier still wait for their slots in a partition? An addition follows the writes before it (R406 item
3). -/
def State.countWaits (s : State) (p : Nat) : Bool :=
  s.cores.any (fun c => s.partOf c.1 == some p && c.2.claims.any (fun k => match k.kind with
    | .write _ => k.prio == 5
    | _ => false))

/-- The partition whose window judges a counter addition: the one named, or for a gate's addition the one its data go to. -/
def State.countPart (s : State) (p : Packet) : Nat :=
  if pkN p 0 1 = 0xFF then (s.partOf (waCore (pkN p 7 6))).getD 15 else pkN p 0 1

/-- `COUNTER_ADD` (R405, R406 item 3): it waits behind the writes before it, and while the serving scheduler is down (R368). -/
def execCounterAdd (pkt : Packet) (s : State) : Res :=
  if pkt.kind ≠ 6 ∨ s.fabric.inbox.contains pkt = false ∨ s.schUp = false ∨ s.countWaits (s.countPart pkt) then .next s
  else if s.admits (s.countPart pkt) pkt.src ∧ s.admitsCtr (s.countPart pkt) (pkN pkt 1 2) then
    .next ((s.syncAdd (pkN pkt 1 2) (pkN pkt 3 4)).done pkt)
  else .next (s.refuseAll [pkt] pkt.flow)

/-! ## Gates (R406, R407) -/

/-- A wafer address with a partition's origin added to its isle (R192). -/
def State.reloc (s : State) (q : Part) (a : Nat) : Nat :=
  a / 2 ^ 44 * 2 ^ 44 + (a / 2 ^ 37 + s.originIdx q) % 128 * 2 ^ 37 + a % 2 ^ 37

/-- A write to `CWY_GATE_CFG` (R406, R414): the other fields change only while `ENABLE` is 0; enabling sets F to 0 and arms the gate; disabling
ends a firing in flight. -/
def State.gateCfg (s : State) (g v : Nat) : State :=
  let r := rGate g 4
  let on := bits v 20 20
  if s.fld r 20 20 = 0 then
    let s := s.setRegN r (v % 2 ^ 21)
    if on = 1 then (s.setGate g {}).setRegN (rGate g 6) (2 ^ 24) else s
  else if on = 1 then s
  else ((s.gateStop g).setFld r 20 20 0).setFld (rGate g 6) 26 24 0

/-- The addition to `DONE` at the far device (R406 item 3). -/
def State.gateAdd (s : State) (g : Nat) : State :=
  s.fabSend (devAddr (devOf (s.reg64 (rGate g 2)))) 1 0x06 (0x8000 + g)
    (natLe 1 0xFF ++ natLe 2 (s.fld (rGate g 5) 31 16) ++ natLe 4 1 ++ natLe 6 (s.reg64 (rGate g 2) % 2 ^ 48)) []

/-- `GATE_FIRE` (R406, R407): an armed gate whose trigger counter has reached F + 1 claims the reads of its chunk, which it sends as they are served;
a trigger more than `SLOTS` ahead is an overrun. -/
def execGateFire (gate : Nat) (s : State) : Res :=
  let cfg := s.regN (rGate gate 4)
  let len := bits cfg 12 0
  let slots := bits cfg 16 13
  let x := s.gate gate
  let st := s.fld (rGate gate 6) 26 24
  let trig := fget 0 s.sync (s.fld (rGate gate 5) 15 0)
  if 64 ≤ gate ∨ bits cfg 20 20 = 0 ∨ slots = 0 ∨ x.busy ∨ s.nodeNum = none ∨ (st ≠ 0 ∧ st ≠ 1 ∧ st ≠ 5) ∨
      counterGe trig (x.fires + 1) = false then .next s
  else
    let q := s.part (bits cfg 19 17)
    let step := 64 * len * (x.fires % slots)
    let a := s.reloc q (s.reg64 (rGate gate 0) % 2 ^ 48)
    let dst := s.reg64 (rGate gate 2) + step
    let c := waCore a
    if len ≠ 0 ∧ (q.loaded = false ∨ q.covers s.gridCols (cIsle c) = false ∨ s.coreOk c = false ∨ waSpace a ≠ spCabinet ∨ waOff a % 64 ≠ 0 ∨
        spaceSize spCabinet < waOff a + step + 64 * len) then .fault (.unpredictable .address)
    else
      let excess := decide ((slots : Nat) < (trig + 2 ^ 32 - x.fires % 2 ^ 32) % 2 ^ 32)
      let s := if excess then (s.setFld (rGate gate 6) 26 24 5).cwyLog 1 (0x106 + 8 * gate) gate 0 else s.setFld (rGate gate 6) 26 24 2
      let n := (len + 15) / 16
      let s := s.setGate gate { fires := x.fires, busy := true, left := n, adding := n == 0, len := len, dst := dst }
      if n = 0 then .next (s.gateAdd gate)
      else .next ((linesAt (waOff a + step) len).foldl (fun (s : State) l => s.claim c { prio := 5, off := 64 * l, kind := .gate gate }) s)

/-! ## Leaders and followers (R408, R409) -/

/-- `FORWARDED_LANE_ENTRIES` (R409): the entries of a beat, one for each lane, from one packet or two. -/
def execForwardedLaneEntries (src part : Nat) (beat : Nat) (entries : List Bytes) (s : State) : Res :=
  let q := s.part part
  match s.message src 0x08 (natLe 1 part ++ natLe 8 beat) entries.flatten with
  | none => .next s
  | some ps =>
    if s.admits part src = false then .next (s.refuseAll ps 0)
    else if q.lanes ≠ entries.length then .next s
    else .next ((s.setPart part { q with fwd := fset [] q.fwd beat entries, fwdAt := s.now }).doneAll ps)

/-- `FORWARDED_LANE_STATE_WORD` (R408 item 2): it joins the words that the leader's scheduler takes in. -/
def execForwardedLaneStateWord (src part lane : Nat) (word : Bytes) (s : State) : Res :=
  match s.message src 0x09 (natLe 1 part ++ natLe 1 lane) word with
  | none => .next s
  | some ps =>
    if s.admits part src = false then .next (s.refuseAll ps 0)
    else .next ((s.updPart part (fun q => { q with words := q.words ++ [(lane, word)] })).doneAll ps)

/-- `FORWARDED_VOID` (R408 item 1, R359): the follower blanks the entry in what it holds and passes the void message on to its cores. -/
def execForwardedVoid (src part entry : Nat) (s : State) : Res :=
  let kd := natLe 1 part ++ natLe 2 entry
  match s.fabric.inbox.find? (fun p => p.src == src && p.kind == 0x0A && p.kd == kd) with
  | none => .next s
  | some pkt =>
    if s.admits part src = false then .next (s.refuseAll [pkt] 0)
    else
      let q := s.part part
      let blank (l : List Bytes) : List Bytes := l.map (blankEnt entry)
      let s := s.setPart part { q with history := q.history.map blank, fwd := q.fwd.map (fun (x : Nat × List Bytes) => (x.1, blank x.2)) }
      let s := s.sendVoids (if q.loaded then s.partCores q else []) entry
      .next (s.done pkt)

/-- `FOLLOWER_ENTRY_TIMEOUT` (R409): 100 ms without entries, counted from the last ones or from the start pulse; logged once in each 100
ms. -/
def execFollowerEntryTimeout (part : Nat) (s : State) : Res :=
  let q := s.part part
  if s.isFollower part ∧ q.loaded ∧ q.started ∧ q.fwdAt + 100000000 ≤ s.now then
    .next ((s.setPart part { q with fwdAt := s.now }).cwyLog 1 (0x40 + 2 * part) part 0)
  else .next s

/-! ## Drafting across devices (R410) -/

/-- The draft request of a target on another device. -/
def State.remoteDraft (s : State) (src target : Nat) : Option Nat :=
  (s.reqs.find? (fun x => x.2.draft && x.2.state != 0 && x.2.proxy == some src && x.2.link == target)).map Prod.fst

/-- The draft entry that a creation message asks for; none where its partition takes no requests. -/
def State.draftReq (s : State) (src p : Nat) (prompt : List Nat) (samp submit : Bytes) : Option Req :=
  let r := submit.take 128
  let q := s.part p
  if q.loaded && q.liveValid && !s.isFollower p then
    (s.classFor p (recN r 4 4 % 2 ^ 19 + recN r 24 4 + recN r 3 1 % 16)).map (fun c =>
      { newReq s 0 p c r prompt samp with
        draft := true, silent := true, link := recN submit 128 2, rpart := recN submit 130 2, proxy := some src })
  else none

/-- The partition of this device that a proxy message reaches. -/
def State.proxyPart (s : State) (src : Nat) : ProxyMsg → Nat
  | .create p _ _ _ => p
  | .draftToken e _ => (s.req e).part
  | .roundResult e _ _ => ((s.remoteDraft src e).map (fun d => (s.req d).part)).getD 15

/-- `PROXY_MESSAGE` (R410): the creation of a draft waits for a Free entry; proxy traffic pauses while the serving scheduler is down (R413). A
round result without accepted positions ends the draft. -/
def execProxyMessage (src : Nat) (msg : ProxyMsg) (s : State) : Res :=
  match s.message src 0x0C [] (linesOf (proxyBytes msg)).flatten with
  | none => .next s
  | some ps =>
    if s.schUp = false then .next s
    else
      match msg with
      | .create p prompt samp submit =>
        if s.admits p src = false then .next (s.refuseAll ps 0)
        else
          (match s.draftReq src p prompt samp.flatten submit, s.freeFrom 0 with
           | none, _ => .next (s.refuseAll ps 0)
           | some _, none => .next s
           | some r, some e => .next ((s.admitReq e r).doneAll ps))
      | .draftToken e tok =>
        let r := s.req e
        if s.admits r.part src = false then .next (s.refuseAll ps 0)
        else if r.spec ∧ r.proxy = some src ∧ r.state ≠ 0 then
          .next ((s.updReq e (fun r => { r with drafts := r.drafts ++ [tok] })).doneAll ps)
        else .next (s.doneAll ps)
      | .roundResult e n tok =>
        match s.remoteDraft src e with
        | none => .next (s.doneAll ps)
        | some d =>
          if s.admits (s.req d).part src = false then .next (s.refuseAll ps 0)
          else if n = 0 then .next ((s.cancelOne d 3 false).doneAll ps)
          else
            .next ((s.updReq d (fun r =>
              { r with pos := r.pos + n - r.produced, lastTok := tok, rounds := r.rounds + 1, produced := 0 })).doneAll ps)

/-! ## Migration (R411, R412) -/

/-- A request table entry as its 128 bytes (Table 12-3). -/
def Req.bytes (r : Req) : Bytes :=
  natLe 1 (r.state % 8 + r.part % 8 * 8 + b2n r.hard * 64 + b2n r.spec * 128) ++
  natLe 1 (b2n r.exp + b2n r.late * 2 + b2n r.draft * 4 + b2n r.dlv * 8) ++ natLe 1 (r.cls % 8) ++ natLe 1 (r.lane % 32) ++
  natLe 2 (r.phase % 8192) ++ natLe 2 (r.link % 8192) ++ natLe 4 (r.promptLen % 2 ^ 19) ++ natLe 4 (r.pos % 2 ^ 20) ++ natLe 4 r.maxNew ++
  natLe 4 r.generated ++ natLe 4 r.ttftGoal ++ natLe 4 r.tbtGoal ++ natLe 8 r.deadline ++ natLe 8 r.tArrive ++ natLe 8 r.tLast ++
  natLe 4 r.ttft ++ natLe 4 r.tbtMax ++ natLe 8 r.user ++ natLe 8 r.promptAddr ++ natLe 8 r.parkAddr ++ natLe 8 r.tExpire ++
  natLe 4 (r.lastTok % 2 ^ 24) ++ natLe 2 r.dctr ++ natLe 2 0 ++ natLe 1 (r.ndraft % 16) ++ natLe 1 r.status ++ natLe 1 (r.cring % 16) ++
  natLe 1 (r.func % 16) ++ natLe 4 r.tbtLast ++ List.replicate 16 0

/-- The entry that 128 bytes spell, with its sampling record and the stop tokens that lie in it. -/
def reqOf (b samp : Bytes) : Req :=
  let n (at_ k : Nat) : Nat := recN b at_ k
  { state := n 0 1 % 8, part := n 0 1 / 8 % 8, hard := n 0 1 / 64 % 2 == 1, spec := n 0 1 / 128 == 1, exp := n 1 1 % 2 == 1
    late := n 1 1 / 2 % 2 == 1, draft := n 1 1 / 4 % 2 == 1, dlv := n 1 1 / 8 % 2 == 1, cls := n 2 1 % 8, promptLen := n 8 4 % 2 ^ 19
    pos := n 12 4 % 2 ^ 20, maxNew := n 16 4, generated := n 20 4, ttftGoal := n 24 4, tbtGoal := n 28 4, deadline := n 32 8
    tArrive := n 40 8, tLast := n 48 8, ttft := n 56 4, tbtMax := n 60 4, user := n 64 8, promptAddr := n 72 8, parkAddr := n 80 8
    tExpire := n 88 8, lastTok := n 96 4 % 2 ^ 24, dctr := n 100 2, ndraft := n 104 1 % 16, status := n 105 1, cring := n 106 1 % 16
    func := n 107 1 % 16, tbtLast := n 108 4, samp := samp
    stops := (List.range (recN samp 14 1 % 16)).map (fun i => recN samp (24 + 4 * i) 4) }

/-- The package of a Parked request (R411); the area from its host, zeros to the end of its last line. -/
def State.package (s : State) (e : Nat) (area : Bytes) : Bytes :=
  let r := s.req e
  let body := (linesOf area).flatten
  let head := natLe 4 0x314D4C51 ++ natLe 2 (s.nodeNum.getD 0) ++ natLe 2 0 ++ natLe 8 ((r.tExpire - s.now) / 1000) ++
    ((s.part r.part).digest ++ List.replicate 32 0).take 32 ++ natLe 8 (768 + body.length) ++ List.replicate 8 0
  head ++ r.bytes ++ (r.samp ++ List.replicate 576 0).take 576 ++ body

/-- A write to `CWY_MIG_CMD` (Table 14-15): with `GO` a migration begins unless one is under way. -/
def State.migCmd (s : State) (v : Nat) : State :=
  let s := s.setRegN (rCwy 0x70) (v % 2 ^ 25)
  if bits v 25 25 = 0 ∨ s.fabric.mig.isSome then s
  else { s with fabric := { s.fabric with mig := some (bits v 12 0, bits v 24 13) } }.setRegN (rCwy 0x71) 1

/-- Is a package to a device already in its stream or delivered? -/
def State.migSent (s : State) (dest : Nat) : Bool :=
  let st : Stream := fget {} s.fabric.streams (dest * 4 + 2)
  st.sent.any (fun x => x.pkt.kind == 0x0B) || st.wait.any (fun p => p.kind == 0x0B) ||
    s.fabric.inbox.any (fun p => p.kind == 0x0B && some p.src == s.nodeNum && devOf p.dest == dest)

/-- `MIGRATION_GO` (R411, R413): the request is Parked, not part of a pair, its area valid; the package goes out on FV2. `area` is the park area
as the host read returns it. A device without a number ends it failed. -/
def execMigrationGo (entry dest : Nat) (area : Option Bytes) (s : State) : Res :=
  let s := if s.fabric.mig.isNone then s.migCmd (entry % 8192 + 8192 * (dest % 4096) + 2 ^ 25) else s
  if s.fabric.mig ≠ some (entry, dest) ∨ s.schUp = false ∨ s.migSent dest then .next s
  else
    let r := s.req entry
    if r.state ≠ 4 ∨ r.spec ∨ r.draft then .next (s.migEnd 3)
    else
      match s.dma r.func area with
      | none => .next (s.migEnd 9)
      | some bs =>
        if recN bs 0 4 ≠ 1 then .next (s.migEnd 3)
        else if s.nodeNum = none then .next (s.migEnd 8)
        else .next (s.fabMessage (devAddr dest) 2 0x0B 0 [] (linesOf (s.package entry bs)))

/-- The lowest free landing slot (R412 item 1). -/
def State.landSlot (s : State) : Option Nat :=
  if s.fld (rCwy 0x74) 15 15 = 0 then none
  else (List.range (s.fld (rCwy 0x74) 7 0)).find? (fun i => s.reqs.all (fun x => x.2.state == 0 || x.2.land != some i))

/-- A package lands (R412). -/
def State.landMigrant (s : State) (e slot : Nat) (pk : Bytes) : State :=
  let cfg := s.regN (rCwy 0x74)
  let addr := s.reg64 (rCwy 0x72) / 4096 * 4096 + 1024 * bits cfg 31 16 * slot
  let samp := (pk.drop 192).take 576
  let r := reqOf ((pk.drop 64).take 128) samp
  let s := s.send (.hostWrite 0 addr pk)
  let s := s.setReq e
    { r with state := 0, part := bits cfg 10 8, func := 0, cring := bits cfg 14 11, parkAddr := addr + 768, land := some slot
             tExpire := (s.now + 1000 * recN pk 8 8) % 2 ^ 64 }
  ((s.reqState e 4).putSampling (bits cfg 10 8) e samp).compl e 4 0 0 false false []

/-- `MIGRATION` (R412): a package is checked in order, and lands or is refused with the status that its source then shows. Migration pauses
while the serving scheduler is down (R413). -/
def execMigration (src : Nat) (package : Bytes) (s : State) : Res :=
  match s.message src 0x0B [] package with
  | none => .next s
  | some ps =>
    let p := s.fld (rCwy 0x74) 10 8
    let q := s.part p
    if s.schUp = false ∨ package.length < recN package 48 8 then .next s
    else if recN package 0 4 ≠ 0x314D4C51 ∨ recN package 48 8 < 832 ∨ recN package 48 8 ≠ package.length then .fault (.unpredictable .record)
    else
      match s.landSlot with
      | none => .next (s.refuseAll ps 5)
      | some slot =>
        if s.admits p src = false then .next (s.refuseAll ps 4)
        else if q.loaded = false ∨ q.liveValid = false ∨ (q.digest ++ List.replicate 32 0).take 32 ≠ (package.drop 16).take 32 then
          .next (s.refuseAll ps 6)
        else
          match s.freeFrom 0 with
          | none => .next (s.refuseAll ps 7)
          | some e =>
            if 1024 * s.fld (rCwy 0x74) 31 16 < package.length then .fault (.unpredictable .contract)
            else .next ((s.landMigrant e slot package).doneAll ps)

end Sys2Proof.Machine
end

