-- ==== Sys2Proof/Machine/View.lean ====
section
/-!
DEFINITION. What a read of a register returns (the register tables of every chapter; 00_scope.md R6 to R8; 13_host_attachment.md R371 to R374;
17_thermal.md R471): the registers that show other state, and the two reads with effects.
-/
namespace Sys2Proof.Machine

/-! ## Array and column status (Tables 2-6 to 2-14) -/

/-- Are an array's margins measured: a round or sweep has completed since the start, or the self-test has measured it (R62, R422)? -/
def State.measuredArr (s : State) (a : Arr) : Bool := a.swept || (decide (5 ≤ s.devState) && s.devState != 9)

/-- The least column margin of an array and the lowest column code that holds it; a column not listed has the full margin. -/
def Arr.worst (a : Arr) : Nat × Nat :=
  let m := a.cols.foldl (fun m (x : Nat × Col) => Nat.min m x.2.margin) 32
  (m, ((List.range 1072).find? (fun i => (a.col i).margin == m)).getD 0)

/-- `CIM_ARRAY_STAT` of a physical array. -/
def State.arrayStat (s : State) (k : Nat) : Nat :=
  let a := s.arr k
  let (m, c) := if s.measuredArr a then a.worst else (63, 0)
  m + 64 * c + 2 ^ 17 * a.freeSpares.length + 2 ^ 22 * s.arrState k + 2 ^ 25 * a.logical

/-- `CIM_COL_STAT` of a column code: a logical column lies in its own physical column or in the spare mapped to it. -/
def State.colStat (s : State) (k col : Nat) : Nat :=
  let a := s.arr k
  let c := a.col col
  let phys := if 1056 ≤ col then col else a.physOf col
  let st := if c.fill then 2 else if c.cand then 1 else 0
  (if s.measuredArr a then c.margin + 64 * c.level else 63) + 2 ^ 13 * phys + 2 ^ 24 * st

/-- `CIM_ISLE_MIN`: the least margin over the isle's arrays in service, the lowest site and array that hold it. -/
def State.isleMin (s : State) (isle : Nat) : Nat :=
  let ks := ((List.range (169 * 64)).map (fun i => isle * 169 * 64 + i)).filter (fun k => decide (k % 64 < 50) && (s.arr k).state == 0)
  let ms := (ks.filter (fun k => s.measuredArr (s.arr k))).map (fun k => ((s.arr k).worst.1, k))
  match ms.foldl (fun (b : Option (Nat × Nat)) x => match b with
    | some y => if x.1 < y.1 then some x else some y
    | none => some x) none with
  | some (m, k) => m + 64 * (k / 64 % 169) + 2 ^ 14 * (k % 64)
  | none => 63

/-! ## Repair (Tables 18-9 to 18-11) -/

/-- `SYS_REP_ISLES`. -/
def State.repIsles (s : State) : Nat :=
  (List.range 8).foldl (fun n r =>
    n + Nat.min 2 (s.rowSpares r).length * 4 ^ r + (if s.isleFail.any (fun i => i / 10 == r) then 2 ^ (16 + r) else 0)) 0

/-- `REP_ISLE`. -/
def State.repIsle (s : State) (isle : Nat) : Nat :=
  let ret := s.retRow isle
  let one := (List.range 13).foldl (fun n k => if s.rowFails isle k = 1 then n + 2 ^ k else n) 0
  let failed := ((List.range 169).filter (fun k => fget 0 s.siteFail (isle * 169 + k) != 0)).length
  let cand := (s.siteCand.filter (fun k => k / 169 == isle)).length
  let st := if s.isleFail.contains isle then 2 else if (s.logicalIsle isle).isSome then 0
            else if s.isleState isle = 2 ∧ s.fld (rSys 0) 15 8 = 0 then 3 else 1
  (if ret < 13 then ret else 15) + 16 * one + 2 ^ 17 * failed + 2 ^ 25 * Nat.min 7 cand + 2 ^ 28 * st

/-- `REP_SITE`; `old` holds `PARITY`. -/
def State.repSite (s : State) (key old : Nat) : Nat :=
  let cause := fget 0 s.siteFail key
  let at_ := s.coreAt (key / 169) (key % 169)
  let st := if cause ≠ 0 then 3 else if s.siteCand.contains key then 2 else if at_.isSome then 0 else 1
  let (row, col) := match at_ with
    | some c => (cRow c, cCol c)
    | none => (15, 15)
  st + 4 * cause + 32 * row + 512 * col + 2 ^ 13 * bits old 20 13

/-! ## Partitions -/

/-- Requests of a partition in some states (Table 12-14). -/
def State.countReqs (s : State) (p : Nat) (sts : List Nat) : Nat :=
  (s.reqs.filter (fun x => x.2.part == p && sts.contains x.2.state)).length

/-- `SCH_PARK_SIZE` (Table 12-16). -/
def State.parkSize (s : State) (p : Nat) : Nat :=
  if (s.part p).loaded then
    (s.shards p).foldl (fun n x => n + 64 * x.2.2.stride + x.2.2.kmax * x.2.2.h * drawerBytes x.2.2.format) 64
  else 0

/-- `SCH_WSW_STAT` (Table 11-9). -/
def Part.wswStat (q : Part) : Nat := q.wswStatus + 256 * q.liveSlot + 512 * b2n q.liveValid + 1024 * q.other + 65536 * q.wswDetail

/-- `CFG_TX_STAT` (Table 19-9). -/
def Tx.stat (t : Tx) : Nat := b2n t.owner.isSome + 2 * b2n t.overflow + 4 * t.shadow.length + 4096 * t.status

/-- `CFG_SLOTS` (Table 19-11). -/
def State.cfgSlots (s : State) : Nat :=
  (List.range 4).foldl (fun n k => n + b2n (s.txSlot k).owner.isSome * 2 ^ k) 0 +
    (List.range 8).foldl (fun n p => n + b2n ((s.part p).commits != []) * 2 ^ (4 + p)) 0

/-! ## A register's value -/

/-- A block register that shows other state, by block: `old` is the value stored. -/
def State.viewSys (s : State) (w old : Nat) : Nat :=
  if w = 2 then 0
  else if w = 0x42 then s.repIsles
  else if w = 0x50 then setBits old 6 4 (Nat.min 4 (s.recent .sec).length)
  else if w = 0x51 then setBits old 6 4 (Nat.min 4 (s.recent .pwc).length)
  else if w = 0x52 then setBits old 6 4 (Nat.min 4 (s.recent .sch).length)
  else old

def State.viewCfg (s : State) (rq : Requester) (w old : Nat) : Nat :=
  let t := match slotOf rq with
    | some k => s.txSlot k
    | none => {}
  if w ≤ 1 then 0 else if w = 2 then t.stat else if w = 3 then t.id.toNat else if w = 4 then s.cfgSlots else old

def State.viewSch (s : State) (w old : Nat) : Nat :=
  if w = 0 then s.now % 2 ^ 32
  else if w = 1 then s.now / 2 ^ 32 % 2 ^ 32
  else if 0x160 ≤ w ∧ w < 0x170 then
    (let p := (w - 0x160) / 2
     if w % 2 = 0 then s.countReqs p [1] + 2 ^ 14 * s.countReqs p [2, 3] else s.countReqs p [4] + 2 ^ 14 * s.countReqs p [5, 6, 7])
  else if 0x180 ≤ w ∧ w < 0x190 then
    (let n := s.parkSize ((w - 0x180) / 2)
     if w % 2 = 0 then n % 2 ^ 32 else n / 2 ^ 32)
  else if 0x1000 ≤ w ∧ w < 0x1040 then
    (let q := s.part ((w - 0x1000) / 8)
     if w % 8 = 3 then 0 else if w % 8 = 4 then q.wswStat else if w % 8 = 5 then q.tag
     else if w % 8 = 6 then (if q.other = 2 ∨ q.other = 3 then q.otag else 0) else old)
  else old

def State.viewPwr (s : State) (w old : Nat) : Nat :=
  if 0x20 ≤ w ∧ w < 0x28 then
    (let p := w - 0x20
     bits old 9 0 + 2 ^ 10 * s.tduty p + 2 ^ 15 * b2n (s.hwPaused p) + 2 ^ 16 * b2n ((s.part p).suspended != []))
  else if 0x100 ≤ w ∧ w < 0x150 then bits old 15 0 + 2 ^ 16 * s.effBudget (w - 0x100)
  else old

/-- An isle's window: the registers of the selected array and column, and the isle's own. The rail voltage and current that the regulator
measures are free values (R459: the spec gives no command that samples them). -/
def State.viewIsle (s : State) (rq : Requester) (isle w old : Nat) : Nat :=
  if w = 0x800 then s.selN rq (rIsle isle 0x800)
  else if w = 0x811 then s.isleMin isle
  else if 0x8D8 ≤ w ∧ w < 0x8DD then bits old 31 21 * 2 ^ 21 + (Config.freeWord s.free (rIsle isle w)).toNat % 2 ^ 21
  else if w = 0x920 then s.repIsle isle
  else if w = 0x930 then setBits old 6 4 (Nat.min 4 (s.recent (.ic isle)).length)
  else old

def State.viewSite (s : State) (rq : Requester) (key w old : Nat) : Nat :=
  let isle := key / 169
  let sel := s.selN rq (rIsle isle 0x800)
  let k := key * 64 + bits sel 13 8
  let a := s.arr k
  if w = 0x804 then s.arrayStat k
  else if w = 0x805 then s.colStat k (bits sel 24 14)
  else if w = 0x806 then a.reconv % 2 ^ 32
  else if w = 0x807 then a.reconv / 2 ^ 32
  else if w = 0x808 then a.rewrite
  else if w = 0x809 then a.hard + 65536 * a.wfault
  else if w = 0x80A then a.scrubFix
  else if w = 0x893 then
    (let dbg := match s.coreAt isle (key % 169) with
       | some c => (s.partAt c).debug
       | none => false
     bits old 7 0 + 256 * b2n dbg)
  else if w = 0x921 then s.repSite key old
  else old

/-- The value that a requester's read of a register shows now. -/
def State.view (s : State) (rq : Requester) (r : Nat) : Word :=
  let old := s.regN r
  BitVec.ofNat 32
    (if r < 0x4000 then s.viewSys r old
     else if r = rHost 0 7 ∨ (2 ^ 27 ≤ r ∧ r < 2 ^ 28 ∧ r % 2 ^ 16 = 7) then s.selN rq r
     else if r < 0x8000 then old
     else if r < 0x10000 then s.viewCfg rq (r - 0x8000) old
     else if r < 0x20000 then s.viewSch (r - 0x10000) old
     else if 0x70000 ≤ r ∧ r < 0x74000 then s.viewPwr (r - 0x70000) old
     else if r = rSec 0x20 ∨ r = rTel 5 then 0
     else if 0x100000 ≤ r ∧ r < 0x240000 then s.viewIsle rq ((r - 0x100000) / 0x4000) ((r - 0x100000) % 0x4000) old
     else if r = rDbg 0x12 then 0
     else if rDbg 0 ≤ r ∧ r < rDbg 8 then b2n (s.part (r - rDbg 0)).debug + bits old 31 1 * 2
     else if 2 ^ 32 ≤ r then s.viewSite rq ((r - 2 ^ 32) / 2 ^ 13) ((r - 2 ^ 32) % 2 ^ 13) old
     else old)

/-- The value at a place. -/
def State.viewAt (s : State) (rq : Requester) : Place0 → Word
  | .reg r => s.view rq r
  | .req e w => BitVec.ofNat 32 (leNat (((s.req e).bytes.drop (4 * w)).take 4))
  | .sync n => BitVec.ofNat 32 (fget 0 s.sync n)
  | .nowhere => 0

/-- The word that a requester's read of a byte address returns (R6 item 1, R371, R374, R471); the holding copy where the requester read the
low half before. -/
def State.readWord (s : State) (rq : Requester) (addr : Nat) : Word :=
  let t := s.target rq addr
  if s.vfDark rq then BitVec.allOnes 32
  else if s.shows t = false then 0
  else
    match t with
    | .reg r =>
      (match fget 0 s.holdHi (ownKey rq r) with
       | 0 => s.viewAt rq t
       | v + 1 => if r ≠ 0 ∧ isLow (r - 1) then BitVec.ofNat 32 v else s.viewAt rq t)
    | _ => s.viewAt rq t

/-! ## The reads with effects -/

/-- `REG64_LOW_READ` (R6 item 1): the high half goes into the requester's holding copy. Rail measurements take a fresh free value. -/
def execReg64LowRead (rq : Requester) (addr : Nat) (s : State) : Res :=
  if addr % 4 ≠ 0 then .fault (.unpredictable .address)
  else if s.hears rq = false then .next s
  else
    let v := s.readWord rq addr
    let s' := s.send (.answer rq (natLe 4 v.toNat))
    match s.target rq addr with
    | .reg r =>
      if isLow r && s.shows (.reg r) && !s.vfDark rq then
        .next { s' with holdHi := fset 0 s'.holdHi (ownKey rq (r + 1)) ((s.view rq (r + 1)).toNat + 1) }
      else .next { s' with free := s'.free + 1 }
    | _ => .next s'

/-- `CIM_COL_STAT_READ` (Table 2-5): with `AUTOINC` the read advances `COL`. -/
def execCimColStatRead (rq : Requester) (isle : Nat) (s : State) : Res :=
  let r := rIsle isle 0x800
  let sel := s.selN rq r
  let addr := 4 * (rIsle isle 0x805)
  if 80 ≤ isle then .fault (.unpredictable .address)
  else if s.hears rq = false then .next s
  else
    let s' := s.send (.answer rq (natLe 4 (s.readWord rq addr).toNat))
    match s.target rq addr with
    | .reg _ =>
      if bits sel 31 31 = 1 ∧ s.shows (.reg r) ∧ s.vfDark rq = false then
        .next { s' with sel := fset 0 s'.sel (ownKey rq r) (BitVec.ofNat 32 (setBits sel 24 14 ((bits sel 24 14 + 1) % 1072))) }
      else .next s'
    | _ => .next s'

end Sys2Proof.Machine
end

