-- ==== Sys2Proof/Machine/RegWrite.lean ====
section
/-!
DEFINITION. Writes to registers (00_scope.md R6 to R8, Table 0-2; the register tables of every chapter): each write is the command that the
register stands for, or sets the writable bits.
-/
namespace Sys2Proof.Machine

/-! ## Writable bits -/

/-- RW and RWS bits take the value written, a 1 clears a W1C bit, all other bits stay (Table 0-2). -/
def RegAcc.merge (a : RegAcc) (old v : Word) : Word :=
  let rw := BitVec.ofNat 32 a.rw
  let w1c := BitVec.ofNat 32 a.w1c
  ((old &&& ~~~rw) ||| (v &&& rw)) &&& ~~~(v &&& w1c)

/-- A write of a register without further effect; a W1C bit that an event of the same cycle has set stays set (Table 0-2). -/
def State.plainWrite (s : State) (r : Nat) (v : Word) : State :=
  s.setReg r ((regAcc r).merge (s.reg r) v ||| (s.reg r &&& BitVec.ofNat 32 ((regAcc r).w1c &&& fget 0 s.fresh r)))

/-- A selection register's value for one requester. -/
def State.selWrite (s : State) (rq : Requester) (r : Nat) (v : Word) : State :=
  { s with sel := fset 0 s.sel (ownKey rq r) (v &&& BitVec.ofNat 32 (regAcc r).rw) }

/-- Does a `CIM_SEL` value select a site, an array and a column that exist (Table 2-5)? -/
def selOk (v : Nat) : Bool := decide (bits v 7 0 ≤ 168) && decide (bits v 13 8 ≤ 49) && decide (bits v 24 14 ≤ 1071)

/-! ## By block -/

/-- SYS: `SYS_RESET`, `SYS_REP_CTL`. A repair that reads a weight image from the host comes as its own command, which carries the image. -/
def State.writeSys (s : State) (w : Nat) (v : Word) : Res :=
  if w = 2 then .next (s.sysReset v.toNat 1)
  else if w = 0x40 then
    (if bits v.toNat 3 2 = 1 then execCoreRepair (bits v.toNat 10 4) (bits v.toNat 18 11) s else .next s)
  else .next (s.plainWrite (rSys w) v)

/-- A HOST page: `HOST_DRV_VER`, the rings, the MSI-X table, whose unmasked vector sends what is pending (R380 to R391). -/
def State.writeHost (s : State) (rq : Requester) (fn w : Nat) (v : Word) : Res :=
  let r := rHost fn w
  let q := w % 128 / 8
  let kind : RingKind := if w < 0x200 then .sq else .cq
  if w = 0 then execHostDrvVerWrite fn v s
  else if w = 7 then .next (s.selWrite rq r v)
  else if 0x100 ≤ w ∧ w < 0x280 then
    (if ringsOf fn ≤ q ∨ 0x180 ≤ w ∧ w < 0x200 then .next s
     else if w % 8 = 4 then execRingControlWrite fn kind q v s
     else if w % 8 ≤ 3 ∧ s.fld (ringCtl fn kind q) 16 16 = 1 then .next s
     else .next (s.plainWrite r v))
  else if 0x2000 ≤ w ∧ w < 0x4000 ∧ w % 4 = 3 then
    (let vec := (w - 0x2000) / 4
     let s' := s.plainWrite r v
     let pba := rHost fn (0x1C00 + vec / 32)
     if s'.fld r 0 0 = 0 ∧ (s'.reg pba).getLsbD (vec % 32) then
       .next ((s'.setReg pba (s'.reg pba &&& ~~~ BitVec.ofNat 32 (2 ^ (vec % 32)))).send (.msix fn vec))
     else .next s')
  else .next (s.plainWrite r v)

/-- CFG: `CFG_TX_BEGIN`, `CFG_TX_CMD`, whose code 3 is reserved. -/
def State.writeCfg (s : State) (rq : Requester) (w : Nat) (v : Word) : Res :=
  if w = 0 then execCfgTxBegin rq v s
  else if w = 1 then
    (if bits v.toNat 1 0 = 1 then execCommit rq s
     else if bits v.toNat 1 0 = 2 then execTransactionRollback rq s
     else if bits v.toNat 1 0 = 3 then .fault (.unpredictable .encoding)
     else .next s)
  else .next s

/-- SCH: the weight commands, whose codes 6 and 7 are reserved, and the staging share (R335). -/
def State.writeSch (s : State) (rq : Requester) (w : Nat) (v : Word) : Res :=
  let p := (w - 0x1000) / 8
  let op := bits v.toNat 2 0
  if 0x1000 ≤ w ∧ w < 0x1040 then
    (if (fnOf rq).any (fun f => s.owns f p) = false then .next s
     else if w % 8 = 2 then execStagingShareWrite rq p (bits v.toNat 3 0) s
     else if w % 8 = 3 then
       (if op = 1 then execStage p s else if op = 2 then execSwap p s else if op = 3 then execRollback p s
        else if op = 4 then execRelease p s else if op = 5 then execAbandon p s
        else if op = 0 then .next s else .fault (.unpredictable .encoding))
     else .next (s.plainWrite (rSch w) v))
  else .next (s.plainWrite (rSch w) v)

/-- PWR: the device limit (R452) and park requests (R455). -/
def State.writePwr (s : State) (w : Nat) (v : Word) : Res :=
  if w = 0 then execPowerLimitWrite v s
  else if 0x300 ≤ w ∧ w < 0x350 then execParkRequest (w - 0x300) (v.getLsbD 0) s
  else .next (s.plainWrite (rPwr w) v)

/-- SEC: a 1 in `SEC_CMD_GO` submits the record. -/
def State.writeSec (s : State) (w : Nat) (v : Word) : Res :=
  if w = 0x20 then (if v.getLsbD 0 then .next s.secGo else .next s) else .next (s.plainWrite (rSec w) v)

/-- TEL: the event ring (R542, R381); without a telemetry map neither digests nor beat records are enabled (R548). -/
def State.writeTel (s : State) (w : Nat) (v : Word) : Res :=
  if w = 4 then execRingControlWrite 0 .ev 0 v s
  else if w ≤ 3 ∧ s.fld (rTel 4) 16 16 = 1 then .next s
  else if 0x20 ≤ w ∧ w < 0x30 ∧ (s.part (w % 8)).noMap then .next (s.plainWrite (rTel w) (v &&& ~~~ 1#32))
  else .next (s.plainWrite (rTel w) v)

/-- CWY: migrations and gates (R411, R414). -/
def State.writeCwy (s : State) (w : Nat) (v : Word) : Res :=
  if w = 0x70 then .next (s.migCmd v.toNat)
  else if 0x100 ≤ w ∧ w < 0x300 then
    (let g := (w - 0x100) / 8
     if w % 8 = 4 then .next (s.gateCfg g v.toNat)
     else if s.fld (rGate g 4) 20 20 = 1 then .next s
     else .next (s.plainWrite (rCwy w) v))
  else .next (s.plainWrite (rCwy w) v)

/-- DBG: leaving debug mode (R534), the window's data (R535). -/
def State.writeDbg (s : State) (w : Nat) (v : Word) : Res :=
  if w < 8 then
    (let s' := s.plainWrite (rDbg w) v
     if v.getLsbD 1 then execDebugExit w s' else .next s')
  else if w = 0x12 then execDbgWindowAccess (some v) s
  else .next (s.plainWrite (rDbg w) v)

/-- One word written by a requester. -/
def State.write1 (s : State) (rq : Requester) (r : Nat) (v : Word) : Res :=
  if s.takes rq r = false then .next s
  else if (regAcc r).rwt ≠ 0 then
    (if reservedValue r v then .fault (.unpredictable .encoding) else .next (s.rwtPut rq r v))
  else if r < 0x4000 then s.writeSys r v
  else if r < 0x8000 then s.writeHost rq 0 (r - 0x4000) v
  else if r < 0x10000 then s.writeCfg rq (r - 0x8000) v
  else if r < 0x20000 then s.writeSch rq (r - 0x10000) v
  else if 0x70000 ≤ r ∧ r < 0x74000 then s.writePwr (r - 0x70000) v
  else if 0x78000 ≤ r ∧ r < 0x7C000 then s.writeSec (r - 0x78000) v
  else if 0x7C000 ≤ r ∧ r < 0x80000 then s.writeTel (r - 0x7C000) v
  else if 0x80000 ≤ r ∧ r < 0x100000 then s.writeCwy (r - 0x80000) v
  else if 0x100000 ≤ r ∧ r < 0x240000 ∧ (r - 0x100000) % 0x4000 = 0x800 then
    (if selOk v.toNat then .next (s.selWrite rq r v) else .fault (.unpredictable .encoding))
  else if 0x400000 ≤ r ∧ r < 0x404000 then s.writeDbg (r - 0x400000) v
  else if 2 ^ 27 ≤ r ∧ r < 2 ^ 28 then s.writeHost rq (r / 2 ^ 16 % 2 ^ 8) (r % 2 ^ 16) v
  else if 2 ^ 32 ≤ r ∧ (r - 2 ^ 32) % 2 ^ 13 = 0x893 then
    (let key := (r - 2 ^ 32) / 2 ^ 13
     let s' := s.plainWrite r v
     if v.getLsbD 9 then execShfHazResume (key / 169) (key % 169) s' else .next s')
  else .next (s.plainWrite r v)

/-! ## 64-bit registers (R6 item 2) -/

/-- The low half is held for the requester. -/
def State.holdLow (s : State) (rq : Requester) (r : Nat) (v : Word) : State :=
  { s with heldLo := fset 0 s.heldLo (ownKey rq r) (v.toNat + 1) }

/-- The high half applies both halves together: the low half held, used once, or as it reads. -/
def State.write64 (s : State) (rq : Requester) (lo : Nat) (v : Word) : Res :=
  match fget 0 s.heldLo (ownKey rq lo) with
  | 0 =>
    if (regAcc lo).rwt ≠ 0 then
      (match s.write1 rq lo (s.view rq lo) with
       | .next s => s.write1 rq (lo + 1) v
       | o => o)
    else s.write1 rq (lo + 1) v
  | l + 1 =>
    match { s with heldLo := fset 0 s.heldLo (ownKey rq lo) 0 }.write1 rq lo (BitVec.ofNat 32 l) with
    | .next s => s.write1 rq (lo + 1) v
    | o => o

/-- A word written where it leads. -/
def State.writeAt (s : State) (rq : Requester) (v : Word) : Place0 → Res
  | .reg r =>
    if isLow r then .next (if s.takes rq r then s.holdLow rq r v else s)
    else if r ≠ 0 ∧ isLow (r - 1) then s.write64 rq (r - 1) v
    else s.write1 rq r v
  | .sync n => if s.hears rq && !s.vfDark rq && s.blocksOpen then execSyncCounterWrite rq n v s else .next s
  | .req _ _ => .next s
  | .nowhere => .next s

/-- `REGISTER_WRITE` (R7, R8): a write to an address inside a word is an error under R14. -/
def execRegisterWrite (rq : Requester) (addr : Nat) (v : Word) (s : State) : Res :=
  if addr % 4 ≠ 0 then .fault (.unpredictable .address) else s.writeAt rq v (s.target rq addr)

/-- `REG64_LOW_WRITE` (R6 item 2): of a register that is no low half it is a plain write. -/
def execReg64LowWrite (rq : Requester) (addr : Nat) (v : Word) (s : State) : Res :=
  if addr % 4 ≠ 0 then .fault (.unpredictable .address) else s.writeAt rq v (s.target rq addr)

/-- `REG64_HIGH_WRITE` (R6 item 2). -/
def execReg64HighWrite (rq : Requester) (addr : Nat) (v : Word) (s : State) : Res :=
  if addr % 4 ≠ 0 then .fault (.unpredictable .address) else s.writeAt rq v (s.target rq addr)

end Sys2Proof.Machine
end

