-- ==== Sys2Proof/Machine/Spdm.lean ====
section
/-!
DEFINITION. Attestation, PCIe IDE, PLDM firmware update and the sideband's address (20_security.md R520, R524 to R527; 19 R507; 21 R552; 13 R370).
Response codes are those of DMTF DSP0274 and DSP0267 (PRESUMED, assumption 60); bytes that the spec does not state are free values.
-/
namespace Sys2Proof.Machine

/-! ## Answers -/

/-- A response of SEC on a transport. -/
def State.spdmSend (s : State) (tr : Transport) (code : Nat) (data : Bytes) : State := s.send (.spdm tr code data)

/-- An SPDM error: 0x01 invalid request, 0x02 invalid session, 0x06 decrypt error, 0x0A session limit exceeded. -/
def State.spdmError (s : State) (tr : Transport) (code : Nat) : State := s.spdmSend tr 0x7F [BitVec.ofNat 8 code]

/-- `n` bytes whose value the spec does not state, and the state that has taken them. -/
def State.freeBytes (s : State) (n : Nat) : Bytes × State :=
  ((List.range n).map (fun i => Config.freeByte s.free i), { s with free := s.free + 1 })

/-- A response that ends in a signature by the Alias key. -/
def State.spdmSigned (s : State) (tr : Transport) (code : Nat) (data : Bytes) (n : Nat) : State :=
  let (sig, s) := s.freeBytes n
  s.spdmSend tr code (data ++ sig)

/-- Can SEC answer: it runs (Table 19-2), and the device has started it? -/
def State.secReady (s : State) : Bool := s.secUp && decide (2 ≤ s.devState)

/-- Can SEC answer on a transport: the DOE mailbox lies in configuration space, which answers once the link is up (R371)? -/
def State.spdmReady (s : State) (tr : Transport) : Bool :=
  s.secReady && (match tr with
    | .doe => s.linkUp
    | .mctp => true)

def trKey : Transport → Nat
  | .doe => 0
  | .mctp => 1

/-- The steps of the connection a transport has taken. -/
def State.spdmStep (s : State) (tr : Transport) (n : Nat) : State := { s with spdm := fset 0 s.spdm (trKey tr) n }

/-! ## Requests (R524, R525) -/

/-- `GET_VERSION`: SPDM 1.2. -/
def execGetVersion (tr : Transport) (s : State) : Res :=
  if s.spdmReady tr = false then .next s else .next ((s.spdmStep tr 1).spdmSend tr 0x04 [0x12#8])

/-- `GET_CAPABILITIES`: the messages of R524 item 1. -/
def execGetCapabilities (tr : Transport) (s : State) : Res :=
  if s.spdmReady tr = false then .next s
  else
    let (flags, s) := s.freeBytes 4
    .next ((s.spdmStep tr 2).spdmSend tr 0x61 flags)

/-- `NEGOTIATE_ALGORITHMS`: ECDSA P-256, SHA-256, secp256r1, AES-256-GCM (R524 item 2), in that order. -/
def execNegotiateAlgorithms (tr : Transport) (s : State) : Res :=
  if s.spdmReady tr = false then .next s else .next ((s.spdmStep tr 3).spdmSend tr 0x63 [0x10#8, 0x01#8, 0x08#8, 0x02#8])

/-- `GET_DIGESTS`: the digest of the chain of slot 0 (R520). -/
def execGetDigests (tr : Transport) (s : State) : Res :=
  if s.spdmReady tr = false then .next s else .next (s.spdmSend tr 0x01 ([0x01#8] ++ Sha.sha256 s.chain))

/-- `GET_CERTIFICATE` (R520): a portion of the chain of slot 0; no other slot is populated. -/
def execGetCertificate (tr : Transport) (slot off len : Nat) (s : State) : Res :=
  if s.spdmReady tr = false then .next s
  else if slot ≠ 0 ∨ s.chain.length < off then .next (s.spdmError tr 1)
  else
    let part := (s.chain.drop off).take len
    .next (s.spdmSend tr 0x02 (natLe 2 part.length ++ natLe 2 (s.chain.length - off - part.length) ++ part))

/-- `CHALLENGE`: signed with the Alias key (R524 item 3). -/
def execChallenge (tr : Transport) (slot : Nat) (nonce : Bytes) (s : State) : Res :=
  if s.spdmReady tr = false then .next s
  else if slot ≠ 0 then .next (s.spdmError tr 1)
  else .next (s.spdmSigned tr 0x03 (Sha.sha256 s.chain ++ nonce) 64)

/-- The value of a measurement (Table 20-2). -/
def State.measurement (s : State) (i : Nat) : Bytes :=
  if i = 6 then
    natLe 4 s.debugCount ++ natLe 1 ((List.range 8).foldl (fun m p => if (s.part p).debug then m + 2 ^ p else m) 0)
  else fget [] s.meas i

/-- A measurement block: index, DMTF format, the value's length, a byte of type, the length again, the value. -/
def State.measBlock (s : State) (i : Nat) : Bytes :=
  let v := s.measurement i
  natLe 1 i ++ [0x01#8] ++ natLe 2 (v.length + 3) ++ natLe 1 (if i = 1 then 0 else if i = 2 then 1 else 3) ++ natLe 2 v.length ++ v

/-- `GET_MEASUREMENTS` (R525): 0 asks for their number, 0xFF for all. -/
def execGetMeasurements (tr : Transport) (index : Nat) (s : State) : Res :=
  if s.spdmReady tr = false then .next s
  else if index = 0 then .next (s.spdmSend tr 0x60 [0x07#8])
  else if index = 0xFF then .next (s.spdmSend tr 0x60 (([1, 2, 3, 4, 5, 6, 7].map s.measBlock).flatten))
  else if index ≤ 7 then .next (s.spdmSend tr 0x60 (s.measBlock index))
  else .next (s.spdmError tr 1)

/-! ## Sessions (R524) -/

/-- Sessions of a transport. -/
def State.sessOn (s : State) (tr : Transport) : List (Transport × Nat × Bool) := s.sess.filter (fun x => x.1 == tr)

/-- Is a session established? -/
def State.sessOpen (s : State) (tr : Transport) (sid : Nat) : Bool := s.sess.contains (tr, sid, true)

def State.sessDrop (s : State) (tr : Transport) (sid : Nat) : State :=
  { s with sess := s.sess.filter (fun x => !(x.1 == tr && x.2.1 == sid)) }

/-- `KEY_EXCHANGE`: a third session of one transport is refused. -/
def execKeyExchange (tr : Transport) (sid : Nat) (s : State) : Res :=
  if s.spdmReady tr = false then .next s
  else if 2 ≤ (s.sessOn tr).length then .next (s.spdmError tr 0x0A)
  else if (s.sessOn tr).any (fun x => x.2.1 == sid) then .next (s.spdmError tr 1)
  else .next ({ s with sess := s.sess ++ [(tr, sid, false)] }.spdmSigned tr 0x64 (natLe 4 sid) 128)

/-- `FINISH`: `ok` is whether the requester's proof verifies. -/
def execFinish (tr : Transport) (sid : Nat) (ok : Bool) (s : State) : Res :=
  if s.spdmReady tr = false then .next s
  else if s.sess.contains (tr, sid, false) = false then .next (s.spdmError tr 2)
  else if ok then .next ({ s.sessDrop tr sid with sess := (s.sessDrop tr sid).sess ++ [(tr, sid, true)] }.spdmSend tr 0x65 [])
  else .next ((s.sessDrop tr sid).spdmError tr 6)

/-- `HEARTBEAT`. -/
def execHeartbeat (tr : Transport) (sid : Nat) (s : State) : Res :=
  if s.spdmReady tr = false then .next s else .next (if s.sessOpen tr sid then s.spdmSend tr 0x68 [] else s.spdmError tr 2)

/-- `KEY_UPDATE`. -/
def execKeyUpdate (tr : Transport) (sid : Nat) (s : State) : Res :=
  if s.spdmReady tr = false then .next s else .next (if s.sessOpen tr sid then s.spdmSend tr 0x69 [] else s.spdmError tr 2)

/-- `END_SESSION`. -/
def execEndSession (tr : Transport) (sid : Nat) (s : State) : Res :=
  if s.spdmReady tr = false then .next s
  else .next (if s.sessOpen tr sid then (s.sessDrop tr sid).spdmSend tr 0x6C [] else s.spdmError tr 2)

/-! ## IDE (R526) -/

/-- An IDE_KM message: over a secured session on DOE, for streams 0 to 9. -/
def State.ideKm (s : State) (sid stream : Nat) (act : State → State) : Res :=
  if s.spdmReady .doe = false ∨ s.sessOpen .doe sid = false ∨ 9 < stream then .next s else .next (act s)

/-- `KEY_PROG`: the stream's keys; it does not carry traffic under them before K_SET_GO. -/
def execKeyProg (sid stream : Nat) (key : Bytes) (s : State) : Res :=
  s.ideKm sid stream (fun s =>
    { s with ide := fset 0 s.ide stream 1, ideKeys := fset [] s.ideKeys stream key }.send (.doe [0x01#8, BitVec.ofNat 8 stream]))

/-- `K_SET_GO`: the stream is secure. -/
def execKSetGo (sid stream : Nat) (s : State) : Res :=
  s.ideKm sid stream (fun s =>
    (if fget 0 s.ide stream = 1 then { s with ide := fset 0 s.ide stream 2 } else s).send (.doe [0x04#8, BitVec.ofNat 8 stream]))

/-- `K_SET_STOP`: the key set is not used any more. -/
def execKSetStop (sid stream : Nat) (s : State) : Res :=
  s.ideKm sid stream (fun s =>
    (if fget 0 s.ide stream = 2 then { s with ide := fset 0 s.ide stream 1 } else s).send (.doe [0x04#8, BitVec.ofNat 8 stream]))

/-- `IDE_FAIL`: a stream in use becomes insecure until it is programmed again. -/
def execIdeFail (stream : Nat) (s : State) : Res :=
  if fget 0 s.ide stream = 2 then .next ({ s with ide := fset 0 s.ide stream 3 }.secEvent 3 stream) else .next s

/-! ## PLDM firmware update (R507) -/

/-- A PLDM answer: the completion code, 0x00 success, 0x8A UNABLE_TO_INITIATE_UPDATE. -/
def State.pldm (s : State) (code : Nat) : State := s.send (.mctp 5 [BitVec.ofNat 8 code])

/-- `REQUEST_UPDATE`: accepted once in a window and with the authorised length; a second one in a window ends the authorisation. -/
def execRequestUpdate (size : Nat) (s : State) : Res :=
  if s.secReady = false then .next s
  else
    match s.fwu with
    | none => .next (s.pldm 0x8A)
    | some u =>
      let inTime := decide (s.now < u.at_ + 60000000000)
      if u.pldm = false then .next (s.pldm 0x8A)
      else if u.window then
        (if inTime ∧ size = u.len then
           .next (({ s with fwu := some { u with window := false } }.setRegN (rSys 0x58) (1 + 8 * (1 - s.fld (rSys 5) 0 0))).pldm 0)
         else .next (s.pldm 0x8A))
      else if inTime then .next ((s.endUpdate false).pldm 0x8A)
      else .next (s.pldm 0x8A)

/-- `REQUEST_FIRMWARE_DATA`: the next bytes of the image arrive and are written into the slot. -/
def execRequestFirmwareData (off : Nat) (data : Bytes) (s : State) : Res :=
  match s.fwu with
  | none => .next s
  | some u =>
    if s.secReady = false ∨ u.pldm = false ∨ u.window ∨ off ≠ u.data.length then .next s
    else
      let d := (u.data ++ data).take u.len
      .next ({ s with fwu := some { u with data := d } }.setFld (rSys 0x58) 2 0 (if d.length = u.len then 3 else 2))

/-- `CANCEL_UPDATE`: the update and its authorisation end. -/
def execCancelUpdate (s : State) : Res :=
  match s.fwu with
  | none => .next s
  | some u =>
    if s.secReady = false ∨ u.pldm = false then .next s
    else if u.window then .next ({ s with fwu := none }.pldm 0)
    else .next ((s.endUpdate false).pldm 0)

/-- `PLDM_WINDOW_EXPIRY`: a window closes unused. -/
def execPldmWindowExpiry (s : State) : Res :=
  match s.fwu with
  | none => .next s
  | some u => if u.window ∧ u.at_ + 60000000000 ≤ s.now then .next { s with fwu := none } else .next s

/-! ## The sideband's address, DOE Discovery -/

/-- `EID_ASSIGNMENT` (R552 item 2): the endpoint takes the EID; 0 and 0xFF are no endpoint's. -/
def execEidAssignment (eid : Nat) (s : State) : Res :=
  if eid = 0 ∨ 255 ≤ eid then .next s else .next ({ s with eid := eid }.send (.mctp 0 [0x00#8, BitVec.ofNat 8 eid]))

/-- `DOE_DISCOVERY` (R370): the protocols of the mailbox are DOE Discovery, CMA/SPDM and Secured CMA/SPDM; the answer names the one of the index and
the next index, 0 after the last; as all of configuration space it answers from link-up on (R371). -/
def execDoeDiscovery (index : Nat) (s : State) : Res :=
  if s.cfgAnswers = false then .next s
  else if index < 3 then .next (s.send (.doe [BitVec.ofNat 8 index, BitVec.ofNat 8 ((index + 1) % 3)]))
  else .next (s.send (.doe [0xFF#8, 0x00#8]))

end Sys2Proof.Machine
end

