-- ==== Sys2Proof/Machine/Tel.lean ====
section
/-!
DEFINITION. The event log's stages and paths, and the monitoring requests of the management sideband (21_telemetry_logs_digests.md R537 to R546,
R552).
-/
namespace Sys2Proof.Machine

/-! ## Records (Table 21-2) -/

/-- An event record as its 64 bytes. -/
def evBytes (r : EvRec) : Bytes :=
  natLe 1 (r.cls % 8) ++ natLe 1 (r.source % 128) ++ natLe 1 (r.part % 16) ++ natLe 1 r.bit ++ natLe 2 r.reg ++ natLe 1 r.isle ++
    natLe 1 r.site ++ natLe 8 r.time ++ natLe 4 r.seq ++ natLe 2 r.rep ++ natLe 2 0 ++ natLe 4 r.a ++ natLe 4 r.b ++ natLe 4 r.c ++
    List.replicate 28 0

/-! ## Stages (R540, R543) -/

/-- `EVENT_RECORD_ENQUEUE` (R540, R543, R546): a record that its source produces, of class 1 to 5, arrives in its isle's staging, at the central
queue or at the sideband path. An isle's record arrives at the central queue out of that isle's staging, oldest first, while its isle
controller runs. -/
def execEventRecordEnqueue (stage : LogStage) (record : EvRec) (s : State) : Res :=
  if record.cls = 0 ∨ 5 < record.cls ∨ 86 < record.source then .next s
  else
    match stage with
    | .isle i => if i < 80 ∧ record.source = i then .next (s.toStaging i record) else .next s
    | .central =>
      if record.source < 80 then
        (let l : LogQ := fget {} s.stag record.source
         match l.q with
         | r :: _ =>
           if r = record ∧ s.icUp record.source then
             .next ({ s with stag := fset {} s.stag record.source l.pop }.toCentral record)
           else .next s
         | [] => .next s)
      else .next (s.toCentral record)
    | .sideband => .next (s.toSideband record)

/-- `ALARM` (R544). -/
def execAlarm (bit : Nat) (record : EvRec) (s : State) : Res :=
  if 5 < bit ∨ 86 < record.source then .next s else .next (s.alarm bit record)

/-! ## The host event ring (R542) -/

/-- Has the event ring room (R384, R542)? -/
def State.evSpace (s : State) : Bool :=
  let r := s.ring 0 2 0
  s.fld (rTel 4) 16 16 == 1 && !s.inD3 0 && s.fld (rTel 4) 31 31 == 0 && r.ready && s.ideOk 0 &&
    (s.regN (rTel 5) + 1) % s.fld (rTel 4) 15 0 != r.host

/-- A record goes into the next slot, then the device's index; a class code of at most `IRQCLASS` sends the vector. -/
def State.evWrite (s : State) (rec_ : EvRec) : State :=
  let idx := s.regN (rTel 5)
  let next := (idx + 1) % s.fld (rTel 4) 15 0
  let s := s.send (.hostWrite 0 (s.reg64 (rTel 0) / 4096 * 4096 + 64 * idx) (evBytes rec_))
  let s := s.setRegN (rTel 5) next
  let s := s.send (.hostWrite 0 (s.reg64 (rTel 2) / 8 * 8 + 4) (natLe 4 next))
  let r := s.ring 0 2 0
  if rec_.cls ≤ s.fld (rTel 4) 30 28 then
    (s.setRing 0 2 0 { r with unsig := 0 }).msix 0 (s.fld (rTel 4) 27 17)
  else s.setRing 0 2 0 { r with unsig := r.unsig + 1, oldest := if r.unsig = 0 then s.now else r.oldest }

/-- An alarm record that one path has delivered; it goes when both have. -/
def delivered (host : Bool) (x : AlarmRec) (xs : List AlarmRec) : List AlarmRec :=
  let y : AlarmRec := if host then { x with host := false } else { x with side := false }
  if y.host || y.side then xs.map (fun z => if z = x then y else z) else xs.erase x

/-- `EVENT_RING_WRITE` (R541, R542, R544): the oldest alarm record, or with none the oldest record of the central queue, is written to the host
event ring where it has room. -/
def execEventRingWrite (s : State) : Res :=
  if s.evSpace = false then .next s
  else
    match s.alarms.find? (·.host), s.central.q with
    | some x, _ => .next ({ s with alarms := delivered true x s.alarms }.evWrite x.rec_)
    | none, r :: _ => .next ({ s with central := s.central.pop }.evWrite r)
    | none, [] => .next s

/-- `EVENT_RING_SIGNAL_TIMER` (R542 item 2). -/
def execEventRingSignalTimer (s : State) : Res :=
  let r := s.ring 0 2 0
  if r.unsig ≠ 0 ∧ r.oldest + 1000000 ≤ s.now then .next ((s.setRing 0 2 0 { r with unsig := 0 }).msix 0 (s.fld (rTel 4) 27 17))
  else .next s

/-! ## Platform monitoring (R552 item 4) -/

/-- A PLDM monitoring response: completion code and data. -/
def State.monitor (s : State) (code : Nat) (data : Bytes) : State := s.send (.mctp 2 (natLe 1 code ++ data))

/-- `GET_PDR`: a record of the repository; the spec states none, so each is a free value. -/
def execGetPdr (handle : Nat) (s : State) : Res :=
  if s.devState = 0 then .next s else .next (s.monitor 0 (Config.pdr handle))

/-- Is a register word one of the numeric sensors (Table 21-1, R552 item 4)? A sensor's number is its register's word number. -/
def sensorReg (r : Nat) : Bool :=
  let w := r - 0x10000
  if r = rPwr 2 ∨ r = rThm 4 then true
  else if rPwr 0x200 ≤ r ∧ r < rPwr 0x250 then true
  else if (rThm 0x100 ≤ r ∧ r < rThm 0x150) ∨ (rThm 0x200 ≤ r ∧ r < rThm 0x250) then true
  else if 0x10000 ≤ r ∧ r < 0x20000 then decide (0xF20 ≤ w) && decide (w < 0xF80) && !(decide (0xF38 ≤ w) && decide (w < 0xF40))
  else if rTel 0x500 ≤ r ∧ r < rTel 0x700 then true
  else if 0x100000 ≤ r ∧ r < 0x240000 then
    (let k := (r - 0x100000) % 0x4000
     (decide (0x8D8 ≤ k) && decide (k < 0x8DD)) || (decide (0x8F0 ≤ k) && decide (k < 0x914)) || k == 0x804 || k == 0x811 || k == 0x870 ||
       k == 0x890 || k == 0x8A0 || k == 0x8C0 || k == 0x8B4 || (decide (0x8B0 ≤ k) && decide (k < 0x8B4)))
  else false

/-- `GET_SENSOR_READING`. A rail's measurement takes a fresh free value. -/
def execGetSensorReading (sensor : Nat) (s : State) : Res :=
  if s.devState = 0 then .next s
  else if sensorReg sensor then
    .next { s.monitor 0 (natLe 4 (s.viewAt .bmc (s.place0 .bmc (4 * sensor))).toNat) with free := s.free + 1 }
  else .next (s.monitor 0x80 [])

/-- `GET_STATE_SENSOR_READINGS`: sensor 0 the device state (R12), sensor 1 `TEL_ALARM`. -/
def execGetStateSensorReadings (sensor : Nat) (s : State) : Res :=
  if s.devState = 0 then .next s
  else if sensor = 0 then .next (s.monitor 0 (natLe 1 s.devState))
  else if sensor = 1 then .next (s.monitor 0 (natLe 1 (s.fld (rTel 8) 5 0)))
  else .next (s.monitor 0x80 [])

/-- `POLL_FOR_PLATFORM_EVENT_MESSAGE` (R546, R552 item 4): the sideband path's next record, alarms first; with none an empty answer. -/
def execPollForPlatformEventMessage (s : State) : Res :=
  if s.devState = 0 then .next s
  else
    match s.alarms.find? (·.side), s.sideQ.q with
    | some x, _ => .next ({ s with alarms := delivered false x s.alarms }.monitor 0 (evBytes x.rec_))
    | none, r :: _ => .next ({ s with sideQ := s.sideQ.pop }.monitor 0 (evBytes r))
    | none, [] => .next (s.monitor 0 [])

end Sys2Proof.Machine
end

