-- ==== Sys2Proof/Machine/Dispatch.lean ====
section
/-!
DEFINITION. One arm per command of the block: its meaning.
-/
namespace Sys2Proof.Machine

/-- What a command does to everything but the queue. -/
def exec (i : Instr) (s : State) : Host.Outcome State Fault Refusal :=
  match i with
  | .ctlPld core ta pt pb wo errs => Sys2Proof.Machine.execCtlPld core ta pt pb wo errs s
  | .ctlPadd core pt imm => Sys2Proof.Machine.execCtlPadd core pt imm s
  | .ctlLoop core lc count len => Sys2Proof.Machine.execCtlLoop core lc count len s
  | .ctlJump core target => Sys2Proof.Machine.execCtlJump core target s
  | .ctlFlead core u f => Sys2Proof.Machine.execCtlFlead core u f s
  | .ctlLane core unit lane tensor dg => Sys2Proof.Machine.execCtlLane core unit lane tensor dg s
  | .cimMvm core ta eng first g w0 n t h fmt a obs => Sys2Proof.Machine.execCimMvm core ta eng first g w0 n t h fmt a obs s
  | .masterCopyFetchLine core eng k err => Sys2Proof.Machine.execMasterCopyFetchLine core eng k err s
  | .rewriteComplete core eng obs => Sys2Proof.Machine.execRewriteComplete core eng obs s
  | .cimPre core ta eng t mode ps pe errs => Sys2Proof.Machine.execCimPre core ta eng t mode ps pe errs s
  | .cimOut core ta eng t dest clr a pd corr unc => Sys2Proof.Machine.execCimOut core ta eng t dest clr a pd corr unc s
  | .cimCal core emask amask obs => Sys2Proof.Machine.execCimCal core emask amask obs s
  | .calStarved isle site arr => Sys2Proof.Machine.execCalStarved isle site arr s
  | .icCalibrationRound isle site arr obs => Sys2Proof.Machine.execIcCalibrationRound isle site arr obs s
  | .spareArrayReplaced isle site arr levels => Sys2Proof.Machine.execSpareArrayReplaced isle site arr levels s
  | .attPass core acc lane asg h0 nh pp po ql tray exp => Sys2Proof.Machine.execAttPass core acc lane asg h0 nh pp po ql tray exp s
  | .attMerge core acc pa pb po q norm exp lane => Sys2Proof.Machine.execAttMerge core acc pa pb po q norm exp lane s
  | .attGemv core acc pw fmt g w0 n a pd init h => Sys2Proof.Machine.execAttGemv core acc pw fmt g w0 n a pd init h s
  | .vecLd core ta ps a n corr unc => Sys2Proof.Machine.execVecLd core ta ps a n corr unc s
  | .vecSt core ta pd a n errs => Sys2Proof.Machine.execVecSt core ta pd a n errs s
  | .vecAlu core acc fn fmt a b c d n bb => Sys2Proof.Machine.execVecAlu core acc fn fmt a b c d n bb s
  | .vecTr core acc fn a b d n => Sys2Proof.Machine.execVecTr core acc fn a b d n s
  | .vecXl core acc fn fmt a n d dw => Sys2Proof.Machine.execVecXl core acc fn fmt a n d dw s
  | .vecQnt core acc fmt sf sm sc ef pe cs a pd nb j0 zh => Sys2Proof.Machine.execVecQnt core acc fmt sf sm sc ef pe cs a pd nb j0 zh s
  | .vecRope core acc a d f nh lane poff => Sys2Proof.Machine.execVecRope core acc a d f nh lane poff s
  | .scan core acc lane a b d n => Sys2Proof.Machine.execScan core acc lane a b d n s
  | .samplerMerge core acc a b d => Sys2Proof.Machine.execSamplerMerge core acc a b d s
  | .draw core acc lane a => Sys2Proof.Machine.execDraw core acc lane a s
  | .verify core acc lane => Sys2Proof.Machine.execVerify core acc lane s
  | .xfrCp core ta ps pd n rt errs => Sys2Proof.Machine.execXfrCp core ta ps pd n rt errs s
  | .xfrGather core ta pi pt n pd rt errs => Sys2Proof.Machine.execXfrGather core ta pi pt n pd rt errs s
  | .xfrMapload core ta asg pc l => Sys2Proof.Machine.execXfrMapload core ta asg pc l s
  | .xfrScatter core lane asg py pc nb => Sys2Proof.Machine.execXfrScatter core lane asg py pc nb s
  | .xfrRelease core amask => Sys2Proof.Machine.execXfrRelease core amask s
  | .xfrSignal core ctr add => Sys2Proof.Machine.execXfrSignal core ctr add s
  | .xfrEmit core lane => Sys2Proof.Machine.execXfrEmit core lane s
  | .xfrDflush core lane => Sys2Proof.Machine.execXfrDflush core lane s
  | .shfHazResume isle site => Sys2Proof.Machine.execShfHazResume isle site s
  | .uPortGrant core errs => Sys2Proof.Machine.execUPortGrant core errs s
  | .shelfCorrectedWriteback core bay => Sys2Proof.Machine.execShelfCorrectedWriteback core bay s
  | .uSlotGroupEnd core bays => Sys2Proof.Machine.execUSlotGroupEnd core bays s
  | .scoreEccUncorrectable core read => Sys2Proof.Machine.execScoreEccUncorrectable core read s
  | .scoreCodewordRewritten core codeword data => Sys2Proof.Machine.execScoreCodewordRewritten core codeword data s
  | .stallItemComplete core cause => Sys2Proof.Machine.execStallItemComplete core cause s
  | .stop part => Sys2Proof.Machine.execStop part s
  | .go part => Sys2Proof.Machine.execGo part s
  | .coreFreeze wave => Sys2Proof.Machine.execCoreFreeze wave s
  | .coreResume wave => Sys2Proof.Machine.execCoreResume wave s
  | .start part => Sys2Proof.Machine.execStart part s
  | .beatBoundary part => Sys2Proof.Machine.execBeatBoundary part s
  | .laneSheetIncomplete part => Sys2Proof.Machine.execLaneSheetIncomplete part s
  | .laneSheetDelivery core lane data => Sys2Proof.Machine.execLaneSheetDelivery core lane data s
  | .pauseFrame part => Sys2Proof.Machine.execPauseFrame part s
  | .pauseSlot part slot => Sys2Proof.Machine.execPauseSlot part slot s
  | .vc0FlitDelivery core line id => Sys2Proof.Machine.execVc0FlitDelivery core line id s
  | .linkLineArrival id err => Sys2Proof.Machine.execLinkLineArrival id err s
  | .straitCrcCheck isle edge flit err => Sys2Proof.Machine.execStraitCrcCheck isle edge flit err s
  | .straitNak isle edge flit => Sys2Proof.Machine.execStraitNak isle edge flit s
  | .straitRetryLate isle edge id => Sys2Proof.Machine.execStraitRetryLate isle edge id s
  | .vc2LineDelivery core id => Sys2Proof.Machine.execVc2LineDelivery core id s
  | .vc3MessageDelivery id => Sys2Proof.Machine.execVc3MessageDelivery id s
  | .refreshDebtTick isle => Sys2Proof.Machine.execRefreshDebtTick isle s
  | .bankRefresh core bank => Sys2Proof.Machine.execBankRefresh core bank s
  | .collisionRefreshDone core => Sys2Proof.Machine.execCollisionRefreshDone core s
  | .foregroundSegmentLine core line err => Sys2Proof.Machine.execForegroundSegmentLine core line err s
  | .backgroundClaim core err => Sys2Proof.Machine.execBackgroundClaim core err s
  | .writeBufferDrain core => Sys2Proof.Machine.execWriteBufferDrain core s
  | .rowRetirement core bank row => Sys2Proof.Machine.execRowRetirement core bank row s
  | .partitionReconfiguration src desc => Sys2Proof.Machine.execPartitionReconfiguration src desc s
  | .loadHeaderRead part header => Sys2Proof.Machine.execLoadHeaderRead part header s
  | .loadTransferDone part image => Sys2Proof.Machine.execLoadTransferDone part image s
  | .loadProgrammed part => Sys2Proof.Machine.execLoadProgrammed part s
  | .unload part => Sys2Proof.Machine.execUnload part s
  | .partitionReset part image => Sys2Proof.Machine.execPartitionReset part image s
  | .enterDebugMode src => Sys2Proof.Machine.execEnterDebugMode src s
  | .debugExit part => Sys2Proof.Machine.execDebugExit part s
  | .raisePowerLimit src => Sys2Proof.Machine.execRaisePowerLimit src s
  | .firmwareUpdate src => Sys2Proof.Machine.execFirmwareUpdate src s
  | .firmwareUpdateDone img => Sys2Proof.Machine.execFirmwareUpdateDone img s
  | .keyRotation src img => Sys2Proof.Machine.execKeyRotation src img s
  | .sparePolicyOverride src => Sys2Proof.Machine.execSparePolicyOverride src s
  | .processorRestart src => Sys2Proof.Machine.execProcessorRestart src s
  | .lockoutExpiry => Sys2Proof.Machine.execLockoutExpiry s
  | .stage part => Sys2Proof.Machine.execStage part s
  | .stagingDataArrived part off data => Sys2Proof.Machine.execStagingDataArrived part off data s
  | .stagingComplete part => Sys2Proof.Machine.execStagingComplete part s
  | .stagingShareWrite rq part share => Sys2Proof.Machine.execStagingShareWrite rq part share s
  | .swap part => Sys2Proof.Machine.execSwap part s
  | .rollback part => Sys2Proof.Machine.execRollback part s
  | .release part => Sys2Proof.Machine.execRelease part s
  | .abandon part => Sys2Proof.Machine.execAbandon part s
  | .rewriteWaveDone part bad => Sys2Proof.Machine.execRewriteWaveDone part bad s
  | .sheetAssembly part => Sys2Proof.Machine.execSheetAssembly part s
  | .hostPoll reads => Sys2Proof.Machine.execHostPoll reads s
  | .submit fn ring record prompt bias => Sys2Proof.Machine.execSubmit fn ring record prompt bias s
  | .cancel fn record => Sys2Proof.Machine.execCancel fn record s
  | .park fn record => Sys2Proof.Machine.execPark fn record s
  | .parkCopyDone entry => Sys2Proof.Machine.execParkCopyDone entry s
  | .resume fn record => Sys2Proof.Machine.execResume fn record s
  | .resumePlaced entry area => Sys2Proof.Machine.execResumePlaced entry area s
  | .drop fn record => Sys2Proof.Machine.execDrop fn record s
  | .parkExpiry entry => Sys2Proof.Machine.execParkExpiry entry s
  | .laneStateWordReceived part lane word => Sys2Proof.Machine.execLaneStateWordReceived part lane word s
  | .voidMessage core entry => Sys2Proof.Machine.execVoidMessage core entry s
  | .releaseComplete entry => Sys2Proof.Machine.execReleaseComplete entry s
  | .deadlineCheck => Sys2Proof.Machine.execDeadlineCheck s
  | .completionRecordWrite fn ring => Sys2Proof.Machine.execCompletionRecordWrite fn ring s
  | .msixModerationTimer fn ring => Sys2Proof.Machine.execMsixModerationTimer fn ring s
  | .syncCounterAdd ctr add => Sys2Proof.Machine.execSyncCounterAdd ctr add s
  | .syncCounterWrite rq ctr v => Sys2Proof.Machine.execSyncCounterWrite rq ctr v s
  | .dmaReadFailure fn kind q => Sys2Proof.Machine.execDmaReadFailure fn kind q s
  | .ringControlWrite fn kind q v => Sys2Proof.Machine.execRingControlWrite fn kind q v s
  | .bar2Access fn off len wr => Sys2Proof.Machine.execBar2Access fn off len wr s
  | .dbgWindowAccess wr => Sys2Proof.Machine.execDbgWindowAccess wr s
  | .hostDrvVerWrite fn v => Sys2Proof.Machine.execHostDrvVerWrite fn v s
  | .vfFlr n => Sys2Proof.Machine.execVfFlr n s
  | .pfFlr => Sys2Proof.Machine.execPfFlr s
  | .linkDown => Sys2Proof.Machine.execLinkDown s
  | .d3hotEntry fn => Sys2Proof.Machine.execD3hotEntry fn s
  | .d0Return fn => Sys2Proof.Machine.execD0Return fn s
  | .linkTrained => Sys2Proof.Machine.execLinkTrained s
  | .cfgTxBegin rq id => Sys2Proof.Machine.execCfgTxBegin rq id s
  | .rwtWrite rq addr v => Sys2Proof.Machine.execRwtWrite rq addr v s
  | .commit rq => Sys2Proof.Machine.execCommit rq s
  | .transactionRollback rq => Sys2Proof.Machine.execTransactionRollback rq s
  | .transactionTimeout slot => Sys2Proof.Machine.execTransactionTimeout slot s
  | .reg64LowRead rq addr => Sys2Proof.Machine.execReg64LowRead rq addr s
  | .reg64LowWrite rq addr v => Sys2Proof.Machine.execReg64LowWrite rq addr v s
  | .reg64HighWrite rq addr v => Sys2Proof.Machine.execReg64HighWrite rq addr v s
  | .cimColStatRead rq isle => Sys2Proof.Machine.execCimColStatRead rq isle s
  | .registerWrite rq addr v => Sys2Proof.Machine.execRegisterWrite rq addr v s
  | .powerLimitWrite v => Sys2Proof.Machine.execPowerLimitWrite v s
  | .parkRequest isle on => Sys2Proof.Machine.execParkRequest isle on s
  | .sysResetWarm rq v => Sys2Proof.Machine.execSysResetWarm rq v s
  | .sysResetCold rq v => Sys2Proof.Machine.execSysResetCold rq v s
  | .sidebandResetRequest v => Sys2Proof.Machine.execSidebandResetRequest v s
  | .perstAssertion => Sys2Proof.Machine.execPerstAssertion s
  | .inputPowerApplied => Sys2Proof.Machine.execInputPowerApplied s
  | .inputPowerLoss => Sys2Proof.Machine.execInputPowerLoss s
  | .auxComplete => Sys2Proof.Machine.execAuxComplete s
  | .rootComplete facts => Sys2Proof.Machine.execRootComplete facts s
  | .islePowerUp res => Sys2Proof.Machine.execIslePowerUp res s
  | .poweringComplete => Sys2Proof.Machine.execPoweringComplete s
  | .testingComplete test => Sys2Proof.Machine.execTestingComplete test s
  | .mappedComplete => Sys2Proof.Machine.execMappedComplete s
  | .stateLimitExceeded => Sys2Proof.Machine.execStateLimitExceeded s
  | .pllLockLoss pll => Sys2Proof.Machine.execPllLockLoss pll s
  | .powerControlPeriod inW inCv draws => Sys2Proof.Machine.execPowerControlPeriod inW inCv draws s
  | .crackCheck drops => Sys2Proof.Machine.execCrackCheck drops s
  | .phaseRetired isle rail phase => Sys2Proof.Machine.execPhaseRetired isle rail phase s
  | .brickFailed => Sys2Proof.Machine.execBrickFailed s
  | .railOvervoltage isle rail => Sys2Proof.Machine.execRailOvervoltage isle rail s
  | .senseLost isle rail => Sys2Proof.Machine.execSenseLost isle rail s
  | .isolated isle vs => Sys2Proof.Machine.execIsolated isle vs s
  | .curLimit u => Sys2Proof.Machine.execCurLimit u s
  | .curLimitRelease u amps => Sys2Proof.Machine.execCurLimitRelease u amps s
  | .inputSample watts => Sys2Proof.Machine.execInputSample watts s
  | .groupWait isle => Sys2Proof.Machine.execGroupWait isle s
  | .isleSwitchOn isle => Sys2Proof.Machine.execIsleSwitchOn isle s
  | .unparkComplete swept => Sys2Proof.Machine.execUnparkComplete swept s
  | .sensorSample isle readings => Sys2Proof.Machine.execSensorSample isle readings s
  | .sensorSelfCheck isle failed => Sys2Proof.Machine.execSensorSelfCheck isle failed s
  | .sensorSpareMapped isle spare reading => Sys2Proof.Machine.execSensorSpareMapped isle spare reading s
  | .hwDutyTick isle => Sys2Proof.Machine.execHwDutyTick isle s
  | .thermalForecast fs => Sys2Proof.Machine.execThermalForecast fs s
  | .heatPark isle => Sys2Proof.Machine.execHeatPark isle s
  | .heatUnpark isle => Sys2Proof.Machine.execHeatUnpark isle s
  | .coolantSample inlet outlet flow inRange => Sys2Proof.Machine.execCoolantSample inlet outlet flow inRange s
  | .coreFailed isle site item => Sys2Proof.Machine.execCoreFailed isle site item s
  | .recoveryPlanned part => Sys2Proof.Machine.execRecoveryPlanned part s
  | .recoveryCopyDone part => Sys2Proof.Machine.execRecoveryCopyDone part s
  | .recoveryReprogrammed part image => Sys2Proof.Machine.execRecoveryReprogrammed part image s
  | .recoveryRewriteDone part => Sys2Proof.Machine.execRecoveryRewriteDone part s
  | .isleFailed isle image => Sys2Proof.Machine.execIsleFailed isle image s
  | .coreRepair isle site => Sys2Proof.Machine.execCoreRepair isle site s
  | .isleRetirement isle image => Sys2Proof.Machine.execIsleRetirement isle image s
  | .resupply isle site image => Sys2Proof.Machine.execResupply isle site image s
  | .resupplyDone isle site => Sys2Proof.Machine.execResupplyDone isle site s
  | .watchdogExpiry proc => Sys2Proof.Machine.execWatchdogExpiry proc s
  | .firmwareTrap proc => Sys2Proof.Machine.execFirmwareTrap proc s
  | .processorResumed proc => Sys2Proof.Machine.execProcessorResumed proc s
  | .icLate isle => Sys2Proof.Machine.execIcLate isle s
  | .repairLogAppend => Sys2Proof.Machine.execRepairLogAppend s
  | .hello port msg => Sys2Proof.Machine.execHello port msg s
  | .helloTimer => Sys2Proof.Machine.execHelloTimer s
  | .neighbourTimeout port => Sys2Proof.Machine.execNeighbourTimeout port s
  | .numberRequest port ident pref => Sys2Proof.Machine.execNumberRequest port ident pref s
  | .numberGrant ident num => Sys2Proof.Machine.execNumberGrant ident num s
  | .numberHoldExpiry num => Sys2Proof.Machine.execNumberHoldExpiry num s
  | .routeVector port quarter entries => Sys2Proof.Machine.execRouteVector port quarter entries s
  | .routeVectorTimer => Sys2Proof.Machine.execRouteVectorTimer s
  | .laneFailure port bad => Sys2Proof.Machine.execLaneFailure port bad s
  | .portRetrained port => Sys2Proof.Machine.execPortRetrained port s
  | .packetReceive port pkt crc checks => Sys2Proof.Machine.execPacketReceive port pkt crc checks s
  | .linkNak port lack => Sys2Proof.Machine.execLinkNak port lack s
  | .e2eRetransmit dest fvc eseq => Sys2Proof.Machine.execE2eRetransmit dest fvc eseq s
  | .transitCreditTimeout port => Sys2Proof.Machine.execTransitCreditTimeout port s
  | .dataWrite pkt => Sys2Proof.Machine.execDataWrite pkt s
  | .counterAdd pkt => Sys2Proof.Machine.execCounterAdd pkt s
  | .endToEndAcknowledgement dest fvc eseq => Sys2Proof.Machine.execEndToEndAcknowledgement dest fvc eseq s
  | .refusal dest fvc flow => Sys2Proof.Machine.execRefusal dest fvc flow s
  | .gateFire gate => Sys2Proof.Machine.execGateFire gate s
  | .forwardedLaneEntries src part beat entries => Sys2Proof.Machine.execForwardedLaneEntries src part beat entries s
  | .forwardedLaneStateWord src part lane word => Sys2Proof.Machine.execForwardedLaneStateWord src part lane word s
  | .forwardedVoid src part entry => Sys2Proof.Machine.execForwardedVoid src part entry s
  | .followerEntryTimeout part => Sys2Proof.Machine.execFollowerEntryTimeout part s
  | .proxyMessage src msg => Sys2Proof.Machine.execProxyMessage src msg s
  | .migrationGo entry dest area => Sys2Proof.Machine.execMigrationGo entry dest area s
  | .migration src package => Sys2Proof.Machine.execMigration src package s
  | .getVersion tr => Sys2Proof.Machine.execGetVersion tr s
  | .getCapabilities tr => Sys2Proof.Machine.execGetCapabilities tr s
  | .negotiateAlgorithms tr => Sys2Proof.Machine.execNegotiateAlgorithms tr s
  | .getDigests tr => Sys2Proof.Machine.execGetDigests tr s
  | .getCertificate tr slot off len => Sys2Proof.Machine.execGetCertificate tr slot off len s
  | .challenge tr slot nonce => Sys2Proof.Machine.execChallenge tr slot nonce s
  | .getMeasurements tr index => Sys2Proof.Machine.execGetMeasurements tr index s
  | .keyExchange tr sid => Sys2Proof.Machine.execKeyExchange tr sid s
  | .finish tr sid ok => Sys2Proof.Machine.execFinish tr sid ok s
  | .heartbeat tr sid => Sys2Proof.Machine.execHeartbeat tr sid s
  | .keyUpdate tr sid => Sys2Proof.Machine.execKeyUpdate tr sid s
  | .endSession tr sid => Sys2Proof.Machine.execEndSession tr sid s
  | .keyProg sid stream key => Sys2Proof.Machine.execKeyProg sid stream key s
  | .kSetGo sid stream => Sys2Proof.Machine.execKSetGo sid stream s
  | .kSetStop sid stream => Sys2Proof.Machine.execKSetStop sid stream s
  | .ideFail stream => Sys2Proof.Machine.execIdeFail stream s
  | .requestUpdate size => Sys2Proof.Machine.execRequestUpdate size s
  | .requestFirmwareData off data => Sys2Proof.Machine.execRequestFirmwareData off data s
  | .cancelUpdate => Sys2Proof.Machine.execCancelUpdate s
  | .pldmWindowExpiry => Sys2Proof.Machine.execPldmWindowExpiry s
  | .getPdr handle => Sys2Proof.Machine.execGetPdr handle s
  | .getSensorReading sensor => Sys2Proof.Machine.execGetSensorReading sensor s
  | .getStateSensorReadings sensor => Sys2Proof.Machine.execGetStateSensorReadings sensor s
  | .pollForPlatformEventMessage => Sys2Proof.Machine.execPollForPlatformEventMessage s
  | .eventRecordEnqueue stage record => Sys2Proof.Machine.execEventRecordEnqueue stage record s
  | .alarm bit record => Sys2Proof.Machine.execAlarm bit record s
  | .eventRingWrite => Sys2Proof.Machine.execEventRingWrite s
  | .eventRingSignalTimer => Sys2Proof.Machine.execEventRingSignalTimer s
  | .referenceClockLoss => Sys2Proof.Machine.execReferenceClockLoss s
  | .eidAssignment eid => Sys2Proof.Machine.execEidAssignment eid s
  | .doeDiscovery index => Sys2Proof.Machine.execDoeDiscovery index s

end Sys2Proof.Machine
end

