-- ==== Sys2Proof/Machine/Tick.lean ====
section
/-!
DEFINITION. One core cycle with no command waiting (07_scores_and_timing.md R197, R198; 09_straits_and_stall_wave.md R279 to R283): the clock, the
score cycles and stalled cycles of each partition, the network, and the commands that the device's own sequencers then have due. A cycle has
two halves: in the first it begins, and what is due before the bundles joins the queue; in the second the cores that run issue (log entry 3).
-/
namespace Sys2Proof.Machine

/-! ## Sequencers (R197, R231) -/

/-- The bundle of a core at an index. -/
def State.bundleAt (s : State) (c : CoreId) (pc : Nat) : Nat := leNat (s.rd (wa spScore c (32 * pc)) 32)

/-- A core issues the bundle that is due: the state of its sequencer and the instructions. -/
def State.issue (s : State) (c : CoreId) : State × List Instr :=
  let k := s.core c
  let (pc, loops) := loopEnd 5 k.next k.loops
  match decodeBundle c (s.bundleAt c pc) with
  | some (d, is) => (s.setCore c { k with next := pc + 1, nextAt := k.nextAt + 1 + d, loops := loops }, is)
  | none => (s, [])

/-- The length of a partition's current beat. -/
def Part.beatT (q : Part) : Nat := q.beatLen.getD q.variant 0

/-- Is a partition in a beat: neither held nor halted nor waiting for its start? -/
def Part.inBeat (q : Part) : Bool := q.loaded && q.begun && !q.held && !q.halted && q.startAt.isNone

/-- Does a partition's root run in this core cycle? -/
def Part.rootRuns (q : Part) : Bool := q.inBeat && q.run && decide (q.score < q.beatT)

/-- Does a core run in this core cycle (R279, R283): it is not frozen, or its root runs and has come up with it; its beat is not over? -/
def State.coreRuns (s : State) (q : Part) (c : CoreId) : Bool :=
  let k := s.core c
  q.inBeat && decide (k.clk < q.base + q.beatT) && (!k.frozen || (q.rootRuns && decide (k.clk = q.total)))

/-- A score cycle of a core begins (R197): the bundle that is due issues. -/
def State.beginCycle (s : State) (base : Nat) (c : CoreId) : State :=
  let due := decide (base + (s.core c).nextAt = (s.core c).clk)
  let s := s.updCore c (fun k => { k with clk := k.clk + 1, live := true })
  if due then
    let (s, is) := s.issue c
    { s with pending := s.pending ++ is }
  else s

/-! ## The root (R279, R281) -/

/-- Items that no longer show at the root, and waves that every core has passed, are dropped. -/
def State.prune (s : State) (p : Nat) : State :=
  s.updPart p (fun q =>
    let now := s.cyc
    let old := q.waves.dropWhile (fun w => decide (now < w.1 + q.dmax))
    { q with
      items := q.items.filter (fun i => match i.down with
        | some d => decide (now ≤ d + s.dist q i.core + 4)
        | none => true)
      waves := q.waves.takeWhile (fun w => decide (now < w.1 + q.dmax)) ++ old.take 1 })

/-- The episodes of a partition (Table 9-9): the cause levels that rose at its root in the cycle before this one. -/
def State.countRises (s : State) (p : Nat) : State :=
  let q := s.part p
  (List.range 8).foldl (fun (s : State) k =>
    if s.causeAt q k (s.cyc - 1) && !(decide (2 ≤ s.cyc) && s.causeAt q k (s.cyc - 2)) then s.sat32 (rSch (0xF40 + 8 * p + k)) 1 else s) s

/-- A cycle of a partition with RUN low counted (Table 9-8). -/
def State.countStall (s : State) (p : Nat) : State :=
  let q := s.part p
  if q.run || q.halted || q.held then s
  else (s.sat64 (rSch (0xF28 + 2 * p)) 1).updPart p (fun q => { q with stallBeat := q.stallBeat + 1 })

/-- Would a command change the state? -/
def changes (s : State) (r : Res) : Bool :=
  match r with
  | .next t => t != s
  | _ => true

/-- The state after a command that answers a next state. -/
def after (s : State) (r : Res) : State :=
  match r with
  | .next t => t
  | _ => s

/-- A command that is due: it would change the state. -/
def dueIf (s : State) (i : Instr) (r : Res) : List Instr := if changes s r then [i] else []

/-- The commands of a partition's root and cores that are due: the root's wave first, then the cores that it reaches, then pauses, the sheet
and the boundary. -/
def State.dueCmds (s : State) (p : Nat) : List Instr :=
  let cores := s.partCores (s.part p)
  let t := after (after s (execStop p s)) (execGo p (after s (execStop p s)))
  dueIf s (.stop p) (execStop p s) ++ dueIf s (.go p) (execGo p s) ++
    (cores.filter t.freezeDue).map (fun c => Instr.coreFreeze ⟨c, false⟩) ++ (cores.filter t.resumeDue).map (fun c => Instr.coreResume ⟨c, false⟩) ++
    (cores.filter (fun c => !(s.core c).missed.isEmpty)).map (fun c => Instr.uSlotGroupEnd c (s.core c).missed) ++
    (if (s.part p).unloading then dueIf t (.unload p) (execUnload p t) else []) ++ dueIf t (.pauseFrame p) (execPauseFrame p t) ++
    ((List.range 16).map (fun k => dueIf t (.pauseSlot p k) (execPauseSlot p k t))).flatten ++
    (if (s.part p).openItem 4 && (s.part p).sheetReady then [Instr.stallItemComplete (s.rootOf (s.part p)) 4] else []) ++
    dueIf t (.laneSheetIncomplete p) (execLaneSheetIncomplete p t) ++ dueIf t (.beatBoundary p) (execBeatBoundary p t)

/-! ## The network -/

/-- The command that a line of the network has due: its delivery where it has arrived, or its strait-retry item. -/
def State.dueLine (s : State) (l : NetLine) : List Instr :=
  if s.lateLine l (s.core l.here).clk then (l.cross.map (fun key => Instr.straitRetryLate (key / 64) (key / 16 % 4) l.id)).toList
  else if l.there s.cyc = false then []
  else
    match l.msg with
    | .vc0 m => if l.sch ≤ (s.core m.core).clk then [.vc0FlitDelivery m.core m.line l.id] else []
    | .vc3 m => if s.vc3Waits m then [] else (match m with
      | .sheetLine c lane data => [.laneSheetDelivery c lane data]
      | _ => [.vc3MessageDelivery l.id])
    | _ => [.vc2LineDelivery l.here l.id]

/-- The NAKs that reach their senders in this cycle, three after a failed check (Table 9-2). -/
def State.dueNaks (s : State) : List Instr :=
  (s.strait.map (fun x => (List.range x.2.buf.length).filterMap (fun k =>
    (x.2.buf[k]?).bind (fun f =>
      if f.nak ∧ x.2.failed = false ∧ s.cyc = f.launch + straitCheckAt (f.total - 1) + 3 then
        some (Instr.straitNak (x.1 / 64) (x.1 / 16 % 4) ⟨(x.1 % 16), k⟩) else none)))).flatten

/-! ## The two halves of a core cycle -/

/-- The loaded partitions. -/
def State.beatParts (s : State) : List Nat := (List.range 8).filter (fun p => (s.part p).loaded)

/-- The cores of the partitions in a beat. -/
def State.beatCores (s : State) : List (Part × CoreId) :=
  ((s.beatParts.map s.part).map (fun q => (s.partCores q).map (fun c => (q, c)))).flatten

/-- A core cycle begins: the score cycle of the one before ends for every core that was in one, lines arrive from the straits, and what is due
before the bundles joins the queue. -/
def State.openCycle (s : State) : State :=
  let s := (s.beatCores.map Prod.snd).foldl (fun s c => if (s.core c).live then s.land c else s) s
  let s := { s with cyc := s.cyc + 1, phase := true, fresh := [] }.straitArrivals
  let s := s.beatParts.foldl (fun s p => (s.prune p).countRises p) s
  { s with pending := s.pending ++ s.dueNaks ++ (s.net.map s.dueLine).flatten ++ (s.beatParts.map s.dueCmds).flatten }

/-- The bundles of a core cycle: every core that runs begins a score cycle, the score time of the roots that run advances, stalled cycles are
counted, and the network moves. -/
def State.runCycle (s : State) : State :=
  let run := s.beatCores.filter (fun x => s.coreRuns x.1 x.2)
  let s := run.foldl (fun s x => s.beginCycle x.1.base x.2) s
  let s := s.beatParts.foldl (fun s p =>
    let s := if (s.part p).rootRuns then s.updPart p (fun q => { q with score := q.score + 1, total := q.total + 1 }) else s
    s.countStall p) s
  { s.meshCycle with phase := false }

/-- What `step` does on an empty queue: a half of a core cycle. A device without power has no clock. -/
def State.tick (s : State) : State :=
  if s.devState = 0 then s else if s.phase then s.runCycle else s.openCycle

end Sys2Proof.Machine
end

