-- ==== Sys2Proof/Safety.lean ====
section
/-!
DEFINITION. The terms in which the statements speak of a command: that it completes with an effect, and what it leaves alone.
-/
namespace Sys2Proof.Machine

/-- A command completes, and the next state has a property. -/
def Yields (i : Instr) (s : State) (P : State → Prop) : Prop := ∃ t, exec i s = .next t ∧ P t

/-- A command stops with a fault. -/
def Faults (i : Instr) (s : State) (c : ErrCause) : Prop := exec i s = .fault (.unpredictable c)

/-- A score instruction completes: it puts operations into the list of its core and changes nothing else. What they do, they do when they
land. -/
def Issues (i : Instr) (s : State) (c : CoreId) (os : List Op) : Prop := exec i s = .next (s.addOps c os)

/-- A shelf line that a port can read in its cycle: no other access takes its bay, it lies in the readable window, its codeword is good. -/
def CleanRead (s : State) (c : CoreId) (accs : List Acc) (port off : Nat) (wide : Bool) : Prop :=
  busDropped { port := port, line := off / 64, wide := wide } accs = false ∧ shelfReadable off = true ∧ s.isBad c spShelf off = false

/-- A write inside a shelf line that no other access takes the bay or words of. -/
def CleanWrite (accs : List Acc) (port off n : Nat) : Prop :=
  busDropped (wrAcc port off n) accs = false ∧ busLost (wrAcc port off n) accs = 0 ∧ shelfWritable off = true

/-- Every byte of the wafer's memory outside a set reads as before. -/
def MemOnly (s t : State) (stored : Nat → Prop) : Prop := ∀ a, ¬ stored a → mget t.mem a = mget s.mem a

/-- Every byte of memory reads as before. -/
def MemSame (s t : State) : Prop := ∀ a, mget t.mem a = mget s.mem a

/-- Every register outside a list reads as before. -/
def RegsOnly (s t : State) (rs : List Nat) : Prop := ∀ r, r ∉ rs → t.reg r = s.reg r

/-- Every core outside a list holds what it held. -/
def CoresOnly (s t : State) (cs : List CoreId) : Prop := ∀ c, c ∉ cs → t.core c = s.core c

/-- Every partition outside a list holds what it held. -/
def PartsOnly (s t : State) (ps : List Nat) : Prop := ∀ p, p ∉ ps → t.part p = s.part p

/-- Every request outside a list holds what it held. -/
def ReqsOnly (s t : State) (es : List Nat) : Prop := ∀ e, e ∉ es → t.req e = s.req e

/-- Every array outside a list holds what it held. -/
def ArrsOnly (s t : State) (ks : List Nat) : Prop := ∀ k, k ∉ ks → t.arr k = s.arr k

/-- Only one core's state changes: every other field of the state, and every other core, is as before. -/
def OnlyCore (s t : State) (c : CoreId) : Prop := t = { s with cores := t.cores } ∧ CoresOnly s t [c]

/-- Only one partition's state changes. -/
def OnlyPart (s t : State) (p : Nat) : Prop := t = { s with parts := t.parts } ∧ PartsOnly s t [p]

/-- Only registers of a list change, and with them the note of the bits that events of this core cycle set. -/
def OnlyRegs (s t : State) (rs : List Nat) : Prop := t = { s with regs := t.regs, fresh := t.fresh } ∧ RegsOnly s t rs

/-- The registers of `TEL_DROP` (R543 item 3). -/
def dropReg (r : Nat) : Prop := rTel 0x100 ≤ r ∧ r < rTel 0x500

/-- Every register outside a list and outside `TEL_DROP` reads as before. -/
def RegsLog (s t : State) (rs : List Nat) : Prop := ∀ r, r ∉ rs → ¬ dropReg r → t.reg r = s.reg r

/-- Only registers of a list, the note of the bits that events of this core cycle set, and the event log change: its stages, alarms, sequence
numbers and `TEL_DROP`. -/
def LogFrame (s t : State) (rs : List Nat) : Prop :=
  t = { s with regs := t.regs, fresh := t.fresh, stag := t.stag, central := t.central, sideQ := t.sideQ, alarms := t.alarms, seq := t.seq } ∧
  RegsLog s t rs

/-- What a score instruction that only works on its core's memory may change: memory, its core, registers, partitions' stall items, the event
log's stagings, the count of free values. Requests, arrays, messages in flight, rings, the fabric and the rest are as before. -/
def ScoreFrame (s t : State) (c : CoreId) : Prop :=
  t = { s with mem := t.mem, cores := t.cores, regs := t.regs, fresh := t.fresh, parts := t.parts, stag := t.stag
               central := t.central, sideQ := t.sideQ, seq := t.seq, free := t.free } ∧ CoresOnly s t [c]

/-- A completion record has gone to a completion ring (R346, R384): into the next slot where the ring had room and nothing waited, else it is held
behind the records that waited. -/
def Posted (s t : State) (fn q : Nat) (e : Option Nat) (frees : Bool) (bs : Bytes) : Prop :=
  if (s.ring fn 1 q).held = [] ∧ s.cqSpace fn q = true then
    Out.hostWrite fn (s.reg64 (cqReg fn q 0) / 4096 * 4096 + 64 * s.fld (cqReg fn q 6) 15 0) bs ∈ t.out
  else (s.ring fn 1 q).held ++ [(e, frees, bs)] <+: (t.ring fn 1 q).held

/-- The bytes of a run from an address. -/
def InRun (a n : Nat) (x : Nat) : Prop := a ≤ x ∧ x < a + n

end Sys2Proof.Machine
end

