-- ==== Sys2Proof/Certificates/Slice0/Obligations.lean ====
section
/-!
DEFINITION. The statements for the provers, chapter by chapter of the spec. A statement holds for every state and every operand that
meets its hypotheses; most have as their conclusion that the command completes (`Yields`) and what the next state holds.
-/
open Sys2Proof Sys2Proof.Machine

/-! ## The cycles of a core -/

/-- R197, R226: what an instruction does later waits. At the end of a score cycle an operation of a later cycle stays in its core's list, and
memory, registers, pointers and other cores are as they were; a pointer whose cycle has come is set.
R172, R174: a read sees what stood before its cycle. A word read by `CTL.PLD` while another unit writes the whole line in the same cycle is
the old one, and after the cycle the line holds what was written.
R172, R174, R175, R181: a write inside a line as it lands. In a bay that no other access of the cycle takes it stores its bytes and nothing else;
dropped, or outside the writable windows (R187), it stores nothing. An operand-buffer line takes every write. -/
def Obligations.OperationsLandInTheirCycle : Prop :=
  (
  ∀ (s : State) (c : CoreId), s.flows = [] → (s.core c).due = [] →
    ((∀ o ∈ (s.core c).ops, s.cycle c < o.at_) →
      let t := s.land c
      (t.core c).ops = (s.core c).ops ∧ (t.core c).live = false ∧ (∀ i, t.ptr c i = s.ptr c i) ∧ t.mem = s.mem ∧ t.regs = s.regs ∧
      CoresOnly s t [c]) ∧
    (∀ (o : Op) (pt : Nat) (v : BitVec 48), (s.core c).ops = [o] → o.act = .ptr pt v → o.at_ ≤ s.cycle c →
      let t := s.land c
      (t.core c).ops = [] ∧ (pt ≠ 0 → t.ptr c pt = v) ∧ (∀ i, i ≠ pt → t.ptr c i = s.ptr c i) ∧ t.mem = s.mem ∧ CoresOnly s t [c])
  ) ∧ (
  ∀ (s : State) (c : CoreId) (ta : Ta) (pt pb wo off : Nat) (ctx : UnitCtx) (bs : Bytes),
    s.flows = [] → (s.core c).due = [] → pt ≠ 0 → off < 0x3F0000 → off % 8 = 0 → bs.length = 64 → ta.src = .none → s.isBad c spShelf (off / 64 * 64) = false →
    let line := off / 64 * 64
    let j : Job := { instr := .ctlPld c ta pt pb wo [], offs := [off], ctx := ctx, at_ := s.cycle c }
    (s.core c).ops = [partOp 0 (s.cycle c) j [{ port := 0, line := off / 64, wide := false }], writeOp 4 (s.cycle c) spShelf line bs false] →
    let t := s.land c
    t.ptr c pt = BitVec.ofNat 48 (leNat (((s.rd (wa spShelf c line) 64).drop (off % 64)).take 6)) ∧
    t.rd (wa spShelf c line) 64 = bs ∧ (t.core c).ops = [] ∧ MemOnly s t (InRun (wa spShelf c line) 64)
  ) ∧ (
  ∀ (u : State) (c : CoreId) (accs : List Acc) (port at_ off : Nat) (bs : Bytes) (fill : Bool),
    bs ≠ [] → off % 64 + bs.length ≤ 64 →
    let t := u.landOp c accs (writeOp port at_ spShelf off bs fill)
    let b := u.landOp c accs (writeOp port at_ spBuf off bs fill)
    (CleanWrite accs port off bs.length → t.rd (wa spShelf c off) bs.length = bs ∧ MemOnly u t (InRun (wa spShelf c off) bs.length)) ∧
    (busDropped (wrAcc port off bs.length) accs = true → t.mem = u.mem ∧ (bs.length = 64 →
      t.fld (u.sreg c 0x891) 15 0 = Nat.min (u.fld (u.sreg c 0x891) 15 0 + 1) 0xFFFF)) ∧
    (shelfWritable off = false → t.mem = u.mem) ∧ ScoreFrame u t c ∧
    b.rd (wa spBuf c off) bs.length = bs ∧ MemOnly u b (InRun (wa spBuf c off) bs.length) ∧ ScoreFrame u b c
  )

/-! ## Score instructions: control slot -/

/-- R229: `CTL.PLD` completes with every even word offset inside the shelf. As its access lands, where no other access takes its bay, `PT` holds
the low 48 bits of words `WO` and `WO` + 1 at `PB` + 4 x `WO`; `PT0` stays 0. No memory changes.
Where the rules leave a point open, the model's choice stands: log entry 15. -/
def Obligations.LoadPointerReadsTwoWords : Prop :=
  ∀ (s : State) (core : CoreId) (ta : Ta) (pt pb wo : Nat) (errs : List LineErr),
    wo % 2 = 0 → pt < 32 → pb < 32 → shelfOk (s.ptrOff core pb) 1 = true → s.ptrOff core pb + 4 * wo < 0x400000 →
    let off := s.ptrOff core pb + 4 * wo
    let line := off / 64 * 64
    let j : Job := { instr := .ctlPld core ta pt pb wo errs, offs := [off], at_ := s.cycle core }
    let op := partOp 0 j.at_ j [{ port := 0, line := off / 64, wide := false }]
    Issues (.ctlPld core ta pt pb wo errs) s core [op] ∧
    ∀ (u : State) (accs : List Acc),
      let t := u.landOp core accs op
      (pt ≠ 0 → errs = [] → CleanRead u core accs 0 line false →
        t.ptr core pt = BitVec.ofNat 48 (leNat (((u.rd (wa spShelf core line) 64).drop (off % 64)).take 6))) ∧
      (∀ i, i ≠ pt → t.ptr core i = u.ptr core i) ∧ t.ptr core 0 = 0 ∧ ScoreFrame u t core ∧ t.mem = u.mem

/-- R230 and R223 item 1: `CTL.PADD` moves the offset field by 64 x `IMM` modulo 2^29 at the end of its cycle; the other fields, every other
pointer and the rest of the machine do not change; `PT0` is not written. -/
def Obligations.PointerAddMovesTheOffset : Prop :=
  ∀ (s : State) (core : CoreId) (pt : Nat) (imm : Int), pt < 32 →
    ∃ v : BitVec 48, Issues (.ctlPadd core pt imm) s core [{ at_ := s.cycle core, port := 0, act := .ptr pt v }] ∧
      ((v.toNat % 2 ^ 29 : Nat) : Int) = ((s.ptrOff core pt : Int) + 64 * imm) % 2 ^ 29 ∧ v.toNat / 2 ^ 29 = (s.ptr core pt).toNat / 2 ^ 29 ∧
      ∀ (u : State) (accs : List Acc),
        let t := u.landOp core accs { at_ := s.cycle core, port := 0, act := .ptr pt v }
        (pt ≠ 0 → t.ptr core pt = v) ∧ (pt = 0 → t = u) ∧ (∀ i, i ≠ pt → t.ptr core i = u.ptr core i) ∧ OnlyCore u t core

/-- R231, R232, R234, R235: the other control instructions, each with the sequencer registers it sets, at once or as it lands; nothing else
changes. -/
def Obligations.SequencerInstructions : Prop :=
  ∀ (s : State) (core : CoreId),
    (∀ lc count len, lc < 4 → (count = 0 ∨ len = 0) →
      Yields (.ctlLoop core lc count len) s (fun t => t.core core = { s.core core with next := (s.core core).next + len } ∧ OnlyCore s t core)) ∧
    (∀ lc count len, lc < 4 → count ≠ 0 → len ≠ 0 → (s.core core).loops.length < 4 →
      (∀ l ∈ (s.core core).loops, l.lc ≠ lc ∧ (s.core core).next + len - 1 ≤ l.last) →
      Yields (.ctlLoop core lc count len) s (fun t =>
        (t.core core).loops = { lc := lc, first := (s.core core).next, last := (s.core core).next + len - 1, left := count - 1 } ::
          (s.core core).loops ∧
        fget 0 (t.core core).lcs lc = count ∧ (t.core core).next = (s.core core).next ∧ OnlyCore s t core)) ∧
    (∀ target, target < 32768 →
      (∀ l, (s.core core).loops.head? = some l → l.first ≤ target ∧ target ≤ l.last ∧ (s.core core).next ≠ l.last + 1) →
      Yields (.ctlJump core target) s (fun t => t.core core = { s.core core with next := target } ∧ OnlyCore s t core)) ∧
    (∀ u f,
      let op : Op := { at_ := s.cycle core, port := 0, act := .lead u (Nat.max 16 f) }
      Issues (.ctlFlead core u f) s core [op] ∧ ∀ (w : State) (accs : List Acc),
        let t := w.landOp core accs op
        (t.core core).flA = (if u = 0 then Nat.max 16 f else (w.core core).flA) ∧
        (t.core core).flX = (if u = 0 then (w.core core).flX else Nat.max 16 f) ∧ OnlyCore w t core) ∧
    (∀ unit lane tensor dg, unit < 5 →
      let op : Op := { at_ := s.cycle core, port := 0, act := .lane unit { lane := lane, tensor := tensor, dg := dg } }
      Issues (.ctlLane core unit lane tensor dg) s core [op] ∧ ∀ (w : State) (accs : List Acc),
        let t := w.landOp core accs op
        t.unit core unit = { lane := lane, tensor := tensor, dg := dg } ∧ (∀ u, u ≠ unit → t.unit core u = w.unit core u) ∧ OnlyCore w t core)

/-! ## Score instructions: CIM slot -/

/-- R237, R111, R114: `CIM.MVM` completes for every well-formed encoding whose arrays hold the format, whatever the converters read; until its
final write it writes no memory, and a product of nothing changes nothing. The final write of a product writes the codewords of its tile row
only.
R47, R112, R113: a product whose conversions all read the true counts raises no item and leaves no product waiting: the tree results of its
windows are to be written with the final write, in score cycle c + 16 N + 5, those of a W1 product to tile rows `T` and `T` + 1.
Where the rules leave a point open, the model's choice stands: log entries 8, 9, 98. -/
def Obligations.ProductsComplete : Prop :=
  (
  ∀ (s : State) (core : CoreId) (ta : Ta) (eng first g w0 n t fmt a : Nat) (h : Bool) (obs : List Conv) (errs : List LineErr),
    (Instr.cimMvm core ta eng first g w0 n t h fmt a ⟨obs, errs⟩).wf = true →
    (∀ k, k < g → afmtOf (s.coreRec core).afmt (eng * 8 + first + k) = some fmt) →
    Yields (.cimMvm core ta eng first g w0 n t h fmt a ⟨obs, errs⟩) s (fun u => u.mem = s.mem ∧ u.reqs = s.reqs ∧ ((g = 0 ∨ n = 0) → u = s)) ∧
    ∀ (u : State) (accs : List Acc) (o : Op) (row : Nat) (outs : List (Nat × Nat × Nat)), o.act = .add eng row outs errs →
      MemOnly u (u.landOp core accs o) (InRun (wa spAcc core (accOff eng row 0)) 2048)
  ) ∧ (
  ∀ (s : State) (core : CoreId) (ta : Ta) (eng first g w0 n t fmt a : Nat) (h : Bool) (errs : List LineErr),
    (Instr.cimMvm core ta eng first g w0 n t h fmt a ⟨[], errs⟩).wf = true → g ≠ 0 → n ≠ 0 →
    (∀ k, k < g → afmtOf (s.coreRec core).afmt (eng * 8 + first + k) = some fmt) →
    let x := s.mvmActs core ta eng g w0 n a errs
    exec (.cimMvm core ta eng first g w0 n t h fmt a ⟨[], errs⟩) s =
      .next (x.2.mvmFinish core eng { first := first, g := g, w0 := w0, n := n, t := t, h := h, fmt := fmt, a := a, acc := [], obs := []
                                      next := 8 * n, rewrites := [], row := 0, causes := [], acts := x.1
                                      lane := (x.2.unit core (cimUnit eng)).lane, final := x.2.cycle core + 16 * n + 5, errs := errs })
  )

/-- R50, R51: a step whose counts are all true passes; a step in which a group's net effect on D - K is not a multiple of 4 fails; so does
a step in which one column alone is miscounted by 1, 2 or 3 levels, but for a `k1` column off by 2, whose net effect of 4 R50's formula does
not see (log entry 7 says so). -/
def Obligations.ResidueCheckFindsSmallMiscounts : Prop :=
  ∀ (a : Arr) (xs : List Int) (w b : Nat),
    (∀ cs : List Conv, (∀ v ∈ cs, v.code = trueCount a xs w b v.col) → stepPasses a xs w b cs = true) ∧
    (∀ (cs : List Conv) (g : Nat), g < 16 →
      ((cs.filter (fun v => decide (v.col / 66 = g))).map (fun v =>
        residueWeight v.col * ((v.code : Int) - (trueCount a xs w b v.col : Int)))).sum % 4 ≠ 0 → stepPasses a xs w b cs = false) ∧
    (∀ v : Conv, v.col < 1056 →
      (let d : Int := (v.code : Int) - (trueCount a xs w b v.col : Int)
       d = 1 ∨ d = 3 ∨ d = -1 ∨ d = -3 ∨ ((d = 2 ∨ d = -2) ∧ v.col % 66 ≠ 65)) → stepPasses a xs w b [v] = false)

/-- R53, R54, R56, R57, R296: `MASTER_COPY_FETCH_LINE` and `REWRITE_COMPLETE` complete in every state. A line of the master copy that arrives without
an error, 16 core cycles after the item began at the earliest, moves the rewrite on by one and writes no memory. After the 128 lines and 544 core
cycles, 2 more for each held conversion, the conversions held are taken where they pass, the item of cause 1 ends, and the next rewrite or the
product goes on.
Where the rules leave a point open, the model's choice stands: log entries 9, 98. -/
def Obligations.WindowRewriteRuns : Prop :=
  ∀ (s : State) (core : CoreId) (eng : Nat),
    (∀ k err, ∃ t, exec (.masterCopyFetchLine core eng k err) s = .next t) ∧ (∀ obs, ∃ t, exec (.rewriteComplete core eng obs) s = .next t) ∧
    ∀ (m : Mvm) (rest : List Mvm) (r : Rewrite) (rs : List Rewrite),
      fget [] (s.core core).susp eng = m :: rest → m.rewrites = r :: rs →
      (∀ k, m.row = k → k < 128 → (s.outstanding core 2 && (s.core core).frozen) = false → 16 ≤ (s.itemAge core 1).getD 0 →
        s.isBad core spCabinet ((s.coreRec core).slotBase (s.partAt core).liveSlot + arrOff (s.coreRec core).afmt (eng * 8 + m.first + r.slot) +
          burstLine m.fmt r.win (k % wBursts m.fmt) (1 + k / wBursts m.fmt)) = false →
        Yields (.masterCopyFetchLine core eng k 0) s (fun t =>
          fget [] (t.core core).susp eng = { m with row := k + 1 } :: rest ∧ t.mem = s.mem ∧ t.regs = s.regs ∧ CoresOnly s t [core])) ∧
      (∀ obs, m.row = 128 → 544 + 2 * r.bitsHeld.length ≤ (s.itemAge core 1).getD 0 → r.others = [] →
        (∀ b ∈ r.bitsHeld, s.mvmPass core eng m obs r.slot r.win b 2 = true) →
        (rs ≠ [] → Yields (.rewriteComplete core eng obs) s (fun t =>
          fget [] (t.core core).susp eng = { m with
            rewrites := rs, row := 0, obs := obs
            acc := m.acc ++ (r.bitsHeld.map (fun b => convsOf obs r.slot r.win b 2)).flatten } :: rest ∧
          (t.partAt core).items = (if (s.partOf core).isSome then lowerFirst core 1 s.cyc (s.partAt core).items else (s.partAt core).items) ∧
          t.mem = s.mem)) ∧
        (rs = [] → m.redo = [] → 8 * m.n ≤ m.next → Yields (.rewriteComplete core eng obs) s (fun t =>
          fget [] (t.core core).susp eng = rest ∧ t.mem = s.mem)))

/-- R238, R239, Table 4-2, R118, R120: a preload in every mode and a read-out to both destinations complete with their operands in range. A
preload reads one line of its source in each cycle and writes the whole tile row in the last of them, Zero at once; a read-out copies its 32
codewords and, with `CLR`, writes zeros to each in the cycle after. A codeword written is what a read of it then returns, and nothing else
changes in memory.
Where the rules leave a point open, the model's choice stands: log entries 2, 9, 15. -/
def Obligations.PreloadAndReadOut : Prop :=
  ∀ (s : State) (core : CoreId) (ta : Ta) (eng t : Nat) (errs : List LineErr), eng < 6 → t < 32 →
    (∀ ps pe, Issues (.cimPre core ta eng t 0 ps pe errs) s core (rowOps eng t (s.cycle core) (List.replicate 512 0))) ∧
    (∀ mode ps pe, 0 < mode → mode < 5 → shelfOk (s.ptrOff core ps) (if mode = 1 then 32 else if mode = 2 then 16 else 9) = true →
      (mode = 4 → shelfOk (s.ptrOff core pe) 16 = true) →
      let j : Job := { instr := .cimPre core ta eng t mode ps pe errs, offs := [s.ptrOff core ps, s.ptrOff core pe]
                       ctx := s.unit core (cimUnit eng), at_ := s.cycle core }
      Issues (.cimPre core ta eng t mode ps pe errs) s core [partOp (cimPort eng) j.at_ j (readAccs (cimPort eng) (s.ptrOff core ps) 1)] ∧
      ∀ (u : State) (accs : List Acc) (k : Nat) (got : Bytes),
        let line (k : Nat) := preLine (s.ptrOff core ps) (s.ptrOff core pe) k mode
        errs = [] → CleanRead u core accs (cimPort eng) (line k) true →
        let u' := u.tagSrc core ta.src (cimPort eng) spShelf (line k)
        let got' := got ++ u.rd (wa spShelf core (line k)) 64
        (k + 1 < preCycles mode →
          u.landOp core accs (partOp (cimPort eng) (j.at_ + k) { j with k := k, got := got } []) =
            u'.addOps core [partOp (cimPort eng) (j.at_ + k + 1) { j with k := k + 1, got := got' } (readAccs (cimPort eng) (line (k + 1)) 1)]) ∧
        (preCycles mode ≤ k + 1 → (preEntries mode got').2 = false →
          u.landOp core accs (partOp (cimPort eng) (j.at_ + k) { j with k := k, got := got } []) =
            u'.addOps core (rowOps eng t (j.at_ + k) (preEntries mode got').1))) ∧
    (∀ dest clr a pd corr unc, (dest = 0 → a + 32 ≤ 256) → (dest = 1 → shelfOk (s.ptrOff core pd) 32 = true) → dest < 2 →
      let j : Job := { instr := .cimOut core ta eng t dest clr a pd corr unc, offs := [s.ptrOff core pd]
                       ctx := s.unit core (cimUnit eng), at_ := s.cycle core }
      Issues (.cimOut core ta eng t dest clr a pd corr unc) s core ((List.range 32).map (fun k =>
        partOp (cimPort eng) (j.at_ + (if dest = 0 then k / 4 else k)) { j with k := k }
          (if dest = 0 then [] else [wrAcc (cimPort eng) (s.ptrOff core pd + 64 * k) 64]))) ∧
      ∀ (u : State) (accs : List Acc) (k at_ : Nat), corr = [] → unc = [] → u.isBad core spAcc (accOff eng t k) = false →
        let bs := u.accBytes core (accOff eng t k)
        u.landOp core accs (partOp (cimPort eng) at_ { j with k := k } []) =
          (u.digest core (cimUnit eng) j.ctx (words 4 bs)).addOps core
            ((if dest = 0 then writeOp 4 (u.cycle core) spBuf (bufVec + 64 * (a + k)) bs ta.fill
              else writeOp (cimPort eng) (u.cycle core) spShelf (s.ptrOff core pd + 64 * k) bs ta.fill) ::
             (if clr then [{ at_ := u.cycle core + 1, port := cimPort eng, act := .row eng t k (List.replicate 16 0) }] else []))) ∧
    (∀ (u : State) (accs : List Acc) (o : Op) (i : Nat) (es : List Nat), o.act = .row eng t i es → i < 32 → es.length = 16 →
      (∀ e ∈ es, e < 2 ^ 32) →
      let w := u.landOp core accs o
      words 4 (w.accBytes core (accOff eng t i)) = es ∧ MemOnly u w (InRun (wa spAcc core (accOff eng t i)) 64) ∧ OnlyCore { u with mem := w.mem } w core)

/-! ## Calibration and retirement -/

/-- R61, R66, R240: a calibration slot of one array completes and moves the array's place in its round of 137 slots on by one, from the last
slot to the first; an encoding that selects no array does nothing; no byte of memory, no request and no partition changes.
R60, R65, R72: an array in use whose gap is above 4,096 array cycles is reported once, while its isle controller runs; nothing else raises the
event. A round of the isle controller takes an unscheduled array to the end of its round; the replacement of an array by its filled spare
completes: the spare takes the logical array, its state becomes In use, the replaced array's Retired. No memory changes.
Where the rules leave a point open, the model's choice stands: log entries 8, 33. -/
def Obligations.CalibrationAndArrayCare : Prop :=
  (
  ∀ (s : State) (core : CoreId) (emask amask : Nat) (obs : List CalObs),
    Yields (.cimCal core emask amask obs) s (fun t =>
      ((emask = 0 ∨ amask = 0) → t = s) ∧ t.mem = s.mem ∧ t.reqs = s.reqs ∧ t.parts = s.parts ∧ CoresOnly s t [core] ∧
      (∀ e a, e < 6 → a < 8 → emask = 2 ^ e → amask = 2 ^ a →
        s.icUp (arrIsle (s.arrKey core (8 * e + a))) = true →
        (t.arr (s.arrKey core (8 * e + a))).slot =
          (if (s.arr (s.arrKey core (8 * e + a))).slot = 136 then 0 else (s.arr (s.arrKey core (8 * e + a))).slot + 1)))
  ) ∧ (
  ∀ (s : State) (isle site arr : Nat) (levels : List LevelMeas) (rows : List (Nat × Nat)),
    Yields (.calStarved isle site arr) s (fun t =>
      (∀ c, s.coreAt isle site = some c →
        let n := (s.arr ((isle * 169 + site) * 64 + arr)).logical
        (s.icUp isle = true → n < 48 → 2 * 4096 < s.calGap c n → (s.core c).starved.contains n = false →
          (t.reg (rIsle isle 0x810)).getLsbD 6 = true ∧ (t.core c).starved.contains n = true ∧ t.mem = s.mem ∧ t.parts = s.parts ∧
          CoresOnly s t [c]) ∧
        ((s.icUp isle = false ∨ 48 ≤ n ∨ s.calGap c n ≤ 2 * 4096 ∨ (s.core c).starved.contains n = true) → t = s)) ∧
      (s.coreAt isle site = none → t = s)) ∧
    Yields (.icCalibrationRound isle site arr ⟨levels, rows⟩) s (fun t => t.mem = s.mem ∧ t.parts = s.parts ∧ t.reqs = s.reqs ∧
      ((s.icUp isle = false ∨ 50 ≤ arr ∨ s.unscheduled isle site arr = false) → t = s) ∧
      (s.icUp isle = true → arr < 50 → s.unscheduled isle site arr = true → (s.arr ((isle * 169 + site) * 64 + arr)).slot < 137 →
        (t.arr ((isle * 169 + site) * 64 + arr)).slot = 0)) ∧
    (∀ c, s.coreAt isle site = some c → s.icUp isle = true →
      let k := (isle * 169 + site) * 64 + arr
      let spk := (isle * 169 + site) * 64 + spareOf (s.arr k).logical
      (s.arr k).logical < 48 → (s.arr spk).state = 2 → (s.arr spk).replaces = some arr → k ≠ spk →
      Yields (.spareArrayReplaced isle site arr levels) s (fun t =>
        (t.arr spk).state = 0 ∧ (t.arr spk).logical = (s.arr k).logical ∧ (t.arr k).state = 4 ∧ (t.arr k).logical = 63 ∧
        fget 0 t.arrMap ((isle * 169 + site) * 64 + (s.arr k).logical) = spareOf (s.arr k).logical + 1 ∧ ArrsOnly s t [k, spk] ∧
        (t.reg (rIsle isle 0x810)).getLsbD 2 = true ∧ t.mem = s.mem ∧ t.cores = s.cores ∧ t.parts = s.parts))
  )

/-! ## Attention slot -/

/-- R242, R243, Table 5-2: `ATT.PASS` completes for parameters in their ranges: it sets the engine's current lane and begins with the parameter line,
in cycle c; one without heads changes nothing. No part of a pass writes memory of itself (without digests). The last part of a head that reads
no drawer and no tray (an empty map) writes rows with `M` minus infinity, `L` and `O` zero (R133) to the lines of that head in its cycles.
R140, R244: `ATT.MERGE` completes with its operands in range, and begins with row 0 in cycle c; a merge of no rows changes nothing. A row read
with no error is the row that the partial holds; the merged values go to the row's eight lines, and no part writes memory of itself (without
digests). The maximum of a merged row is the greater one; two rows that saw no token merge into one that saw none.
Where the rules leave a point open, the model's choice stands: log entries 13, 17. -/
def Obligations.AttentionPassAndMerge : Prop :=
  (
  ∀ (s : State) (core : CoreId) (ta : Ta) (lane asg h0 nh pp po ql : Nat) (tray exp : Bool) (errs : List LineErr),
    Yields (.attPass core ⟨ta, errs⟩ lane asg h0 0 pp po ql tray exp) s (fun t => t = s) ∧
    (∀ a, nh ≠ 0 → h0 + nh ≤ 16 → lane < 32 → s.asg core asg = some a → h0 + nh ≤ a.h →
      let line := if shelfReadable (s.ptrOff core pp) then (s.readLine core errs spShelf (s.ptrOff core pp)).1 else zeroLine
      let p := passPar line
      let q := p.g * p.p
      let off := s.ptrOff core po
      p.ok line a.format = true → shelfOk (s.ptrOff core pp) 1 = true → shelfOk off (nh * rowLines q) = true → ql + nh * (1 + 2 * q) ≤ 1024 →
      (tray = true → shelfOk p.trayoff ((h0 + nh) * drawerLines a.format) = true) →
      let j : Job := { instr := .attPass core ⟨ta, errs⟩ lane asg h0 nh pp po ql tray exp, offs := [s.ptrOff core pp, off]
                       ctx := { s.unit core 2 with lane := lane }, at_ := s.cycle core, lat := (s.core core).flA }
      Yields (.attPass core ⟨ta, errs⟩ lane asg h0 nh pp po ql tray exp) s (fun t =>
        (t.unit core 2).lane = lane ∧ OnlyCore s t core ∧
        (t.core core).ops = insertOp (partOp 3 (s.cycle core) j (readAccs 3 (s.ptrOff core pp) 1)) (s.core core).ops) ∧
      (∀ (u : State) (accs acs : List Acc) (k at_ : Nat) (got held : Bytes),
        (u.landOp core accs (partOp 3 at_ { j with ctx := { j.ctx with dg := false }, k := k, got := got, held := held } acs)).mem = u.mem) ∧
      (∀ (u : State) (accs : List Acc) (i : Nat) (got held : Bytes),
        let b := passPar (held.take 64)
        mapCount (held.drop 64) = 0 → i + 1 = nh → b.mode / 8 % 2 = 0 →
        let t := u.passDone core accs { j with ctx := { j.ctx with dg := false }, got := got, held := held } a ta lane h0 nh i false exp []
        t.mem = u.mem ∧
        (t.core core).ops = (runOps 3 spShelf (off + 64 * i * rowLines (b.g * b.p)) (rowsBytes (List.replicate (b.g * b.p) RowState.init)) ta.fill
          (fun k => j.at_ + 16 + a.stride + j.lat + (i + 1) * headCycles b a.format false + 4 + k / 4)).foldl (fun l o => insertOp o l)
            (u.core core).ops))
  ) ∧ (
  (∀ (s : State) (core : CoreId) (ta : Ta) (pa pb po q : Nat) (norm exp : Bool) (lane : Nat) (errs : List LineErr),
    Yields (.attMerge core ⟨ta, errs⟩ pa pb po 0 norm exp lane) s (fun t => t = s) ∧
    (q ≠ 0 → q ≤ 64 → lane < 32 → shelfOk (s.ptrOff core pa) (rowLines q) = true → shelfOk (s.ptrOff core pb) (rowLines q) = true →
      shelfOk (s.ptrOff core po) (rowLines q) = true →
      let oa := s.ptrOff core pa
      let ob := s.ptrOff core pb
      let oo := s.ptrOff core po
      let j : Job := { instr := .attMerge core ⟨ta, errs⟩ pa pb po q norm exp lane, offs := [oa, ob, oo], ctx := s.unit core 2, at_ := s.cycle core }
      Issues (.attMerge core ⟨ta, errs⟩ pa pb po q norm exp lane) s core [partOp 3 j.at_ j (execAttMerge.mergeAccs oa ob q 0)] ∧
      (∀ (u : State) (accs acs : List Acc) (r : Nat) (got : Bytes), r < q →
        let x := u.mergeRow core accs ta oa q r errs
        let y := x.2.mergeRow core accs ta ob q r errs
        let row := if norm then (x.1.merge y.1).normalise else x.1.merge y.1
        let t := u.landOp core accs (partOp 3 (j.at_ + 6 * r) { j with ctx := { j.ctx with dg := false }, k := r, got := got } acs)
        t.mem = u.mem ∧
        (∀ o ∈ runOps 3 spShelf (oo + 512 * r) (unwords 4 row.o) ta.fill (fun k => j.at_ + 6 * r + 8 + k / 4), o ∈ (t.core core).ops) ∧
        (errs = [] → (∀ k, k < 8 → CleanRead u core accs 3 (oa + 512 * r + 64 * k) true) → CleanRead u core accs 3 (oa + 64 * (8 * q + r / 8)) true →
          x.1.o = words 4 (u.rd (wa spShelf core (oa + 512 * r)) 512) ∧
          x.1.m = leNat ((u.rd (wa spShelf core (oa + 64 * (8 * q + r / 8) + 8 * (r % 8))) 4)))))) ∧
  (∀ a b : RowState, (a.merge b).m = Fp.fmax a.m b.m) ∧ RowState.init.merge RowState.init = RowState.init
  )

/-- R161, R245, R111: `ATT.GEMV` completes for well-formed fields and operands in range: its requests for the weights begin in cycle c, its
activations are read in cycle c + F. Without slots or windows it adds nothing with `INIT` 1. A destination line is written with the tree results,
`INIT` 1 adding them to what it held; no part writes memory of itself (without digests).
Where the rules leave a point open, the model's choice stands: log entry 34. -/
def Obligations.StreamedProductCompletes : Prop :=
  ∀ (s : State) (core : CoreId) (ta : Ta) (pw fmt g w0 n a pd : Nat) (init h : Bool) (errs : List LineErr),
    fmt < 3 → g ≤ 8 → w0 + n ≤ 16 →
    ((g = 0 ∨ n = 0) → init = true → Yields (.attGemv core ⟨ta, errs⟩ pw fmt g w0 n a pd init h) s (fun t => t = s)) ∧
    (((g ≠ 0 ∧ n ≠ 0) ∨ init = false) → s.ptrOff core pw % 64 = 0 → s.ptrOff core pw + g * imageBytes fmt ≤ 0x5800000 →
      shelfOk (s.ptrOff core pd) (gemvLines fmt) = true → (0 < g → a + 17 * (g - 1) + n + 1 ≤ 1024) →
      let img := s.ptrOff core pw
      let dst := s.ptrOff core pd
      let j : Job := { instr := .attGemv core ⟨ta, errs⟩ pw fmt g w0 n a pd init h, offs := [img, dst], ctx := s.unit core 2, at_ := s.cycle core
                       lat := (s.core core).flA }
      Issues (.attGemv core ⟨ta, errs⟩ pw fmt g w0 n a pd init h) s core
        (segOps 3 j.at_ (gemvFetch img g w0 n fmt) ++ [partOp 3 (j.at_ + j.lat) j []]) ∧
      (∀ (u : State) (accs acs : List Acc) (k at_ : Nat) (got held : Bytes),
        let j' : Job := { j with ctx := { j.ctx with dg := false }, k := k, got := got, held := held }
        let t := u.landOp core accs (partOp 3 at_ j' acs)
        t.mem = u.mem ∧
        (2 ≤ k → init = false → t = u.addOps core [writeOp 3 (u.cycle core) spShelf (dst + 64 * (k - 2))
          (unwords 4 ((List.range 16).map (fun e =>
            if got.getD (16 * (k - 2) + e) 0 = 1 then (addNode (0, 0) ((words 4 (piece held (k - 2))).getD e 0, 0)).1 else 0))) ta.fill])))

/-! ## Vector slot -/

/-- R247, R223, R224: `VEC.LD` and `VEC.ST` complete with their ranges in the shelf and the buffer: line k of a load is read in cycle c + k, of a
store in cycle c + k / 2, and is written in that cycle with what was read.
Where the rules leave a point open, the model's choice stands: log entry 15. -/
def Obligations.VectorMoves : Prop :=
  ∀ (s : State) (core : CoreId) (ta : Ta) (p a n : Nat) (errs : List LineErr) (corr unc : List Nat),
    Yields (.vecLd core ta p a 0 corr unc) s (fun t => t = s) ∧ Yields (.vecSt core ta p a 0 errs) s (fun t => t = s) ∧
    (n ≠ 0 → shelfOk (s.ptrOff core p) n = true → a + n ≤ 256 →
      let off := s.ptrOff core p
      let jl := s.vecJob core (.vecLd core ta p a n corr unc) [off] 1
      let js := s.vecJob core (.vecSt core ta p a n errs) [off] 1
      Issues (.vecLd core ta p a n corr unc) s core (parts 4 jl n (fun k => s.cycle core + k) (fun k => readAccs 4 (off + 64 * k) 1)) ∧
      Issues (.vecSt core ta p a n errs) s core (parts 4 js n (fun k => s.cycle core + k / 2) (fun k => [wrAcc 4 (off + 64 * k) 64])) ∧
      ∀ (u : State) (accs : List Acc) (k at_ : Nat), errs = [] → corr = [] → unc = [] →
        (CleanRead u core accs 4 (off + 64 * k) true →
          u.landOp core accs (partOp 4 at_ { jl with k := k } (readAccs 4 (off + 64 * k) 1)) =
            (u.tagSrc core ta.src 4 spShelf (off + 64 * k)).addOps core
              [writeOp 4 (s.cycle core + k) spBuf (vecOff (a + k)) (u.rd (wa spShelf core (off + 64 * k)) 64) ta.fill]) ∧
        (u.isBad core spBuf (vecOff (a + k)) = false →
          u.landOp core accs (partOp 4 at_ { js with k := k } [wrAcc 4 (off + 64 * k) 64]) =
            (u.tagSrc core ta.src 4 spBuf (vecOff (a + k))).addOps core
              [writeOp 4 (s.cycle core + k / 2) spShelf (off + 64 * k) (u.rd (wa spBuf core (vecOff (a + k))) 64) ta.fill]))

/-- R248, R249, R250, R252, R205, R99 to R103: the arithmetic of the vector unit completes with its ranges in the buffer, one part for each line
or head in its cycle. What a part writes, in the cycle before its result may be used, are the function's results element by element, whatever the
source elements are; without digests no part changes memory of itself. -/
def Obligations.VectorArithmetic : Prop :=
  ∀ (s : State) (core : CoreId) (ta : Ta) (a b c d n : Nat) (errs : List LineErr),
    (∀ fn fmt bb, fn < 9 → a + n ≤ 256 → (fn ≤ 6 → b + (if bb then (if n = 0 then 0 else 1) else n) ≤ 256) → (fn = 3 → c + n ≤ 256) →
      d + (if fn = 8 then (if fmt = 0 then (n + 1) / 2 else 2 * n) else n) ≤ 256 →
      let j := s.vecJob core (.vecAlu core ⟨ta, errs⟩ fn fmt a b c d n bb) [] (s.lat core (aluClass fn fmt))
      Issues (.vecAlu core ⟨ta, errs⟩ fn fmt a b c d n bb) s core (parts 4 j n (fun k => s.cycle core + k / 4) (fun _ => [])) ∧
      ∀ (u : State) (accs : List Acc) (k at_ : Nat), errs = [] →
        let w := fmtBytes fmt
        let ln (x : Nat) := words w (u.rdLine core spBuf (vecOff x))
        let out := aluElems fn fmt bb (ln (a + k)) (if 6 < fn then [] else if bb then ln b else ln (b + k)) (if fn = 3 then ln (c + k) else [])
        let t := u.landOp core accs (partOp 4 at_ { j with k := k, ctx := { j.ctx with dg := false } } [])
        t.mem = u.mem ∧
        (∀ o ∈ runOps 4 spBuf (if fn = 8 then (if fmt = 0 then vecOff d + 32 * k else vecOff (d + 2 * k)) else vecOff (d + k))
          (unwords (if fn = 8 then fmtBytes (1 - fmt) else w) out) ta.fill (fun _ => usable j.at_ j.lat + k / 4), o ∈ (t.core core).ops)) ∧
    (∀ fn, fn < 6 → a + n ≤ 256 → (fn = 3 → b + n ≤ 256) → d + n ≤ 256 →
      let j := s.vecJob core (.vecTr core ⟨ta, errs⟩ fn a b d n) [] (s.lat core 2)
      Issues (.vecTr core ⟨ta, errs⟩ fn a b d n) s core (parts 4 j n (fun k => s.cycle core + k) (fun _ => [])) ∧
      ∀ (u : State) (accs : List Acc) (k at_ : Nat), errs = [] →
        let ln (x : Nat) := words 4 (u.rdLine core spBuf (vecOff x))
        let t := u.landOp core accs (partOp 4 at_ { j with k := k, ctx := { j.ctx with dg := false } } [])
        t.mem = u.mem ∧
        writeOp 4 (usable j.at_ j.lat + k) spBuf (vecOff (d + k)) (unwords 4 ((List.range 16).map (fun i =>
          trOp fn ((ln (a + k)).getD i 0) ((if fn = 3 then ln (b + k) else []).getD i 0)))) ta.fill ∈ (t.core core).ops) ∧
    (∀ fn fmt dw, a + n ≤ 256 → d < 256 → dw < 16 → n ≠ 0 →
      let j := s.vecJob core (.vecXl core ⟨ta, errs⟩ fn fmt a n d dw) [] (s.lat core 3)
      Issues (.vecXl core ⟨ta, errs⟩ fn fmt a n d dw) s core [partOp 4 (s.cycle core) j []] ∧
      ∀ (u : State) (accs : List Acc) (k at_ : Nat) (got : Bytes), errs = [] →
        let got' := got ++ u.bufRun core (vecOff (a + 4 * k)) (Nat.min 4 (n - 4 * k))
        let t := u.landOp core accs (partOp 4 at_ { j with k := k, got := got, ctx := { j.ctx with dg := false } } [])
        t.mem = u.mem ∧
        (n ≤ 4 * k + 4 → fmt = 0 →
          writeOp 4 (usable j.at_ j.lat + (n - 1) / 4) spBuf (vecOff d + 4 * dw) (natLe 4 (reduceXl fn (words 4 got'))) false ∈ (t.core core).ops) ∧
        (4 * k + 4 < n → partOp 4 (j.at_ + k + 1) { j with k := k + 1, got := got', ctx := { j.ctx with dg := false } } [] ∈ (t.core core).ops)) ∧
    (∀ fn fmt dw, a ≤ 256 → d < 256 → dw < 16 → Yields (.vecXl core ⟨ta, errs⟩ fn fmt a 0 d dw) s (fun t =>
      (s.unit core 3).dg = false → t.mem = s.mem ∧
        writeOp 4 (usable (s.cycle core) (s.lat core 3)) spBuf (vecOff d + 4 * dw) (natLe 4 (reduceXl fn [])) false ∈ (t.core core).ops)) ∧
    (∀ f nh lane poff, nh ≤ 32 → a + 8 * nh ≤ 256 → d + 8 * nh ≤ 256 → f ≤ 252 →
      let j := s.vecJob core (.vecRope core ⟨ta, errs⟩ a d f nh lane poff) [entPos0 (s.sheetEnt core lane) + poff] (s.lat core 5)
      let freq := s.readRun core errs spBuf (vecOff f) 4
      exec (.vecRope core ⟨ta, errs⟩ a d f nh lane poff) s = .next (if nh = 0 then s else
        freq.2.addOps core (parts 4 { j with held := freq.1 } nh (fun k => s.cycle core + 2 * k) (fun _ => []))) ∧
      ∀ (u : State) (accs : List Acc) (k at_ : Nat) (held : Bytes), errs = [] →
        freq.1 = s.bufRun core (vecOff f) 4 ∧
        let t := u.landOp core accs (partOp 4 at_ { j with k := k, held := held, ctx := { j.ctx with dg := false } } [])
        t.mem = u.mem ∧
        (∀ o ∈ runOps 4 spBuf (vecOff (d + 8 * k)) (unwords 4 (ropeHead (entPos0 (s.sheetEnt core lane) + poff) (words 4 held)
          (words 4 (u.bufRun core (vecOff (a + 8 * k)) 8)))) ta.fill (fun _ => usable j.at_ j.lat + 2 * k), o ∈ (t.core core).ops))

/-- R90, R94, R104, R251: `VEC.QNT` completes for well-formed fields and ranges, its first block in cycle c; without blocks it changes nothing. No
part changes memory of itself (without digests); the last part writes the header line, in which the scale codes of its blocks stand, those of other
blocks are kept, or with `ZH` those after its blocks become 0. -/
def Obligations.QuantiserCompletes : Prop :=
  ∀ (s : State) (core : CoreId) (ta : Ta) (fmt sf sm sc ef pe cs a pd nb j0 : Nat) (zh : Bool) (errs : List LineErr),
    (Instr.vecQnt core ⟨ta, errs⟩ fmt sf sm sc ef pe cs a pd nb j0 zh).wf = true →
    (nb = 0 → Yields (.vecQnt core ⟨ta, errs⟩ fmt sf sm sc ef pe cs a pd nb j0 zh) s (fun t => t = s)) ∧
    (nb ≠ 0 → shelfOk (s.ptrOff core pd) 1 = true →
      s.ptrOff core pd + 64 + 8 * elemBits fmt * (j0 + nb) ≤ 0x400000 → (ef ≠ 0 → shelfOk (s.ptrOff core pe) (2 * nb) = true) →
      a + (if sf = 0 then 4 else 2) * nb ≤ 256 →
      let dst := s.ptrOff core pd
      let j := s.vecJob core (.vecQnt core ⟨ta, errs⟩ fmt sf sm sc ef pe cs a pd nb j0 zh) [dst, s.ptrOff core pe] (s.lat core 4)
      Issues (.vecQnt core ⟨ta, errs⟩ fmt sf sm sc ef pe cs a pd nb j0 zh) s core
        [partOp 4 (s.cycle core) j (if ef = 2 then readAccs 4 (s.ptrOff core pe) 2 else [])] ∧
      (∀ (u : State) (accs acs : List Acc) (k at_ : Nat) (got held : Bytes),
        let t := u.landOp core accs (partOp 4 at_ { j with k := k, got := got, held := held, ctx := { j.ctx with dg := false } } acs)
        t.mem = u.mem ∧
        (Nat.max nb 2 ≤ k + 1 → nb ≤ k → 2 ≤ k → writeOp 4 (j.at_ + j.lat) spShelf dst (qntHeader held got nb j0 zh) ta.fill ∈ (t.core core).ops))) ∧
    (∀ (old scales : Bytes) (i : Nat), i < 64 →
      ((i < j0 ∨ j0 + nb ≤ i) → (qntHeader old scales nb j0 zh).getD i 0 = if zh = true ∧ j0 + nb ≤ i then 0 else old.getD i 0) ∧
      (j0 ≤ i → i < j0 + nb → (qntHeader old scales nb j0 zh).getD i 0 = scales.getD (i - j0) 0))

/-- R253, R352 to R357: the sampler's steps complete with their ranges. A scan and a merge keep as many candidates as the lane's sampling record
and the candidates allow, and a list written reads back as it was; a draw appends one token to the lane's word, sets `EMPTY` on an empty list,
takes the first candidate at temperature 0 and sets `STOP` on a stop token; a verification writes the accept count.
Where the rules leave a point open, the model's choice stands: log entry 36. -/
def Obligations.SamplerSteps : Prop :=
  (∀ (k : Nat) (l : List Cand), (candBest k l).length = Nat.min k l.length) ∧
  (∀ l : List Cand, l.length ≤ 256 → (∀ e ∈ l, e.1 < 2 ^ 32 ∧ e.2 < 2 ^ 32) → candRead (candBytes l) = l) ∧
  ∀ (s : State) (core : CoreId) (ta : Ta) (lane a b d n : Nat) (errs : List LineErr), lane < 32 →
    (a + n ≤ 256 → b < 256 → d + 33 ≤ 256 →
      Yields (.scan core ⟨ta, errs⟩ lane a b d n) s (fun t => ScoreFrame s t core ∧ t.mem = s.mem ∧ (errs = [] →
        let j : Job := { s.vecJob core (.scan core ⟨ta, errs⟩ lane a b d n) [leNat ((s.bufRun core (vecOff b) 1).take 4)] (s.lat core 6) with
                         held := s.sampRec core }
        (t.core core).ops = insertOp (partOp 4 (s.cycle core) j []) (s.core core).ops ∧
        ∀ (u : State) (accs : List Acc) (k at_ : Nat) (got : Bytes), n ≤ 4 * k + 4 →
          let zs := words 4 (got ++ u.bufRun core (vecOff (a + 4 * k)) (Nat.min 4 (n - 4 * k)))
          let first := j.offs.getD 0 0
          let l := candBest (Nat.min (sampTopK j.held) 256) ((List.range zs.length).map (fun i => ((adjust j.held (first + i) (zs.getD i 0)).1, first + i)))
          let t' := u.landOp core accs (partOp 4 at_ { j with k := k, got := got } [])
          t'.mem = u.mem ∧ ∀ o ∈ runOps 4 spBuf (vecOff d) (candBytes l) ta.fill (fun _ => usable j.at_ j.lat + ceilDiv n 4), o ∈ (t'.core core).ops))) ∧
    (a + 33 ≤ 256 → b + 33 ≤ 256 → d + 33 ≤ 256 → errs = [] →
      let x := s.bufRun core (vecOff a) 33
      let y := s.bufRun core (vecOff b) 33
      leNat (x.take 4) ≤ 256 → leNat (y.take 4) ≤ 256 →
      Yields (.samplerMerge core ⟨ta, errs⟩ a b d) s (fun t => ScoreFrame s t core ∧ t.mem = s.mem ∧
        ∀ o ∈ runOps 4 spBuf (vecOff d) (candBytes (candBest (Nat.min (sampTopK (s.sampRec core)) 256) (candRead x ++ candRead y))) ta.fill
          (fun _ => usable (s.cycle core) (s.lat core 6) + 16), o ∈ (t.core core).ops)) ∧
    (a + 33 ≤ 256 → errs = [] →
      let bs := s.bufRun core (vecOff a) 33
      let r := s.sampRec core
      let i := fget 0 (s.core core).draws lane
      let pos := entPos0 (s.sheetEnt core lane)
      let j : Job := { s.vecJob core (.draw core ⟨ta, errs⟩ lane a) [pos] (s.lat core 6 + 32) with k := i, got := bs, held := r }
      let op := partOp 4 (usable j.at_ j.lat) j [wrAcc 4 (wordOff lane) 60]
      let w := wa spShelf core (wordOff lane)
      leNat (bs.take 4) ≤ 256 →
      Yields (.draw core ⟨ta, errs⟩ lane a) s (fun t => ScoreFrame s t core ∧ t.mem = s.mem ∧ fget 0 (t.core core).draws lane = i + 1 ∧
        op ∈ (t.core core).ops) ∧
      ∀ (u : State) (accs : List Acc), CleanWrite accs 4 (wordOff lane) 60 →
        let t := u.landOp core accs op
        t.rdN w 4 = drawn r bs (pos + i + 1) ∧ t.rdN (w + 6) 1 = Nat.min (i + 1) 15 ∧ t.rdN (w + 4) 1 = 1 ∧
        (i ≤ 8 → t.rdN (w + 16 + 4 * i) 4 = t.rdN w 4) ∧ (candRead bs = [] → t.rdN w 4 = 0 ∧ t.wordFlag core lane 3 = true) ∧
        (candRead bs ≠ [] → sampTemp r = 0 → t.rdN w 4 = leNat ((bs.drop 68).take 4) % 2 ^ 24) ∧
        ((sampStops r).contains (t.rdN w 4) = true → t.wordFlag core lane 2 = true) ∧ MemOnly u t (InRun w 60)) ∧
    (let j : Job := { s.vecJob core (.verify core ⟨ta, errs⟩ lane) [] (s.lat core 6 + 8) with got := s.sheetEnt core lane }
     let op := partOp 4 (usable j.at_ j.lat) j [wrAcc 4 (wordOff lane + 4) 1]
     let w := wa spShelf core (wordOff lane)
     let ent := s.sheetEnt core lane
     Issues (.verify core ⟨ta, errs⟩ lane) s core [op] ∧
     ∀ (u : State) (accs : List Acc), CleanWrite accs 4 (wordOff lane + 4) 4 →
       let t := u.landOp core accs op
       (entN ent ≤ 1 → t.rdN (w + 4) 1 = 1) ∧
       (entN ent = 2 → 1 ≤ u.rdN (w + 6) 1 % 16 → t.rdN (w + 4) 1 = if entTok ent 1 = u.rdN (w + 16) 4 then 2 else 1) ∧
       MemOnly u t (InRun (w + 4) 1))

/-! ## Transfer slot -/

/-- R254, R255, R262, R275, Table 8-10: `XFR.CP` completes on each of its routes with its operands in place. Within a core line k is read in its cycle and is
written as it was read; from the cabinet it comes after the fetch lead, at 5 lines in 3 cycles; a write to the cabinet leaves the line in the
slice as it was read. Over VC0 a line leaves in the cycle after its read, every second cycle; over VC2 the lines are one flow, one in 8 cycles: pushed as
they are read, or asked for with a request to the source.
Where the rules leave a point open, the model's choice stands: log entries 15, 30. -/
def Obligations.CopyRoutes : Prop :=
  ∀ (s : State) (core : CoreId) (ta : Ta) (ps pd n rt : Nat) (errs : List LineErr) (src dst : Place),
    let i := Instr.xfrCp core ta ps pd n rt errs
    let c := s.cycle core
    let j := s.xfrJob core i [src.off, dst.off, dst.core, dst.space]
    Yields (.xfrCp core ta ps pd 0 rt errs) s (fun t => t = s) ∧
    (n ≠ 0 → s.place core ps n = some src → s.place core pd n = some dst → errs = [] →
      (s.copyRoute core src dst rt = some .shelf →
        Issues i s core (parts 5 j n (fun k => c + k) (fun k => readAccs 5 (src.off + 64 * k) 1)) ∧
        ∀ (u : State) (accs acs : List Acc) (k at_ : Nat), CleanRead u core accs 5 (src.off + 64 * k) true →
          u.landOp core accs (partOp 5 at_ { j with k := k } acs) = (u.tagSrc core ta.src 5 spShelf (src.off + 64 * k)).addOps core
            [writeOp 5 (c + 1 + k) spShelf (dst.off + 64 * k) (u.rd (wa spShelf core (src.off + 64 * k)) 64) ta.fill]) ∧
      (s.copyRoute core src dst rt = some .fromCabinet →
        let jc := { j with offs := [src.off, dst.off, core, 2] }
        Issues i s core (segOps 5 c (linesAt src.off n) ++ parts 5 jc n (fun k => c + 16 + 3 * k / 5) (fun _ => [])) ∧
        ∀ (u : State) (accs : List Acc) (k at_ : Nat), u.landOp core accs (partOp 5 at_ { jc with k := k } []) = u.addOps core
          [writeOp 5 (c + (s.core core).flX + 3 * k / 5) spShelf (dst.off + 64 * k) (u.cabRd core (src.off + 64 * k) true) ta.fill]) ∧
      (s.copyRoute core src dst rt = some .toCabinet →
        Issues i s core (parts 5 j n (fun k => c + 3 * k / 5) (fun k => readAccs 5 (src.off + 64 * k) 1)) ∧
        ∀ (u : State) (accs acs : List Acc) (k at_ : Nat), CleanRead u core accs 5 (src.off + 64 * k) true →
          u.landOp core accs (partOp 5 at_ { j with k := k } acs) = (u.tagSrc core ta.src 5 spShelf (src.off + 64 * k)).addOps core
            [writeOp 5 (u.cycle core) spCabinet (dst.off + 64 * k) (u.rd (wa spShelf core (src.off + 64 * k)) 64) false]) ∧
      (s.copyRoute core src dst rt = some .scheduled →
        Issues i s core (parts 6 j n (fun k => c + 2 * k) (fun k => readAccs 6 (src.off + 64 * k) 1)) ∧
        ∀ (u : State) (accs acs : List Acc) (k at_ : Nat), CleanRead u core accs 6 (src.off + 64 * k) true →
          ∃ x l, (u.landOp core accs (partOp 6 at_ { j with k := k } acs)).net = u.net ++ [x] ∧ x.vc = 0 ∧ x.msg = .vc0 l ∧ x.here = core ∧
            x.route = u.meshRoute core dst.core ∧ x.sch = u.cycle core + 1 ∧ l.core = dst.core ∧ l.space = spShelf ∧
            l.line = dst.off / 64 + k ∧ l.data = u.rd (wa spShelf core (src.off + 64 * k)) 64 ∧ l.fill = ta.fill ∧
            l.last = decide (k + 1 = n)) ∧
      (s.copyRoute core src dst rt = some .push → s.flowsOf core < 4 →
        let jp := { j with offs := [src.off, s.netId, dst.core, 3] }
        Yields i s (fun t =>
          t = { s with flows := s.flows ++ [{ id := s.netId, core := core, lane := j.ctx.lane, lines := flowLines src dst n }]
                       netId := s.netId + 1, cores := t.cores } ∧ CoresOnly s t [core] ∧
          (∀ o ∈ parts 5 jp n (fun k => c + 8 * k) (fun k => readAccs 5 (src.off + 64 * k) 1), o ∈ (t.core core).ops)) ∧
        ∀ (u : State) (accs acs : List Acc) (k at_ : Nat), CleanRead u core accs 5 (src.off + 64 * k) true →
          ∃ x, (u.landOp core accs (partOp 5 at_ { jp with k := k } acs)).net = u.net ++ [x] ∧ x.vc = 2 ∧ x.here = core ∧
            x.route = u.meshRoute core dst.core ∧
            x.msg = .flowLine s.netId k (u.rd (wa spShelf core (src.off + 64 * k)) 64) (u.poisoned core j.ctx.lane)) ∧
      (s.copyRoute core src dst rt = some .pull → s.flowsOf core < 4 →
        Yields i s (fun t => ∃ x, t = { s with
            flows := s.flows ++ [{ id := s.netId, core := core, lane := j.ctx.lane, lines := flowLines src dst n }]
            net := s.net ++ [x], netId := s.netId + 2 } ∧
          x.vc = 2 ∧ x.msg = .request s.netId ∧ x.here = core ∧ x.route = s.meshRoute core src.core)))

/-- R254, R256: `XFR.GATHER` reads its index in cycle c and takes row i of the table, i from the word at `PI`: of a table in the cabinet each line comes
after the fetch lead, of a remote one all lines over VC2.
Where the rules leave a point open, the model's choice stands: log entries 15, 30. -/
def Obligations.GatherTakesTheRow : Prop :=
  ∀ (s : State) (core : CoreId) (ta : Ta) (pi pt n pd rt : Nat) (errs : List LineErr),
    Yields (.xfrGather core ta pi pt 0 pd rt errs) s (fun t => t = s) ∧
    (∀ tb, n ≠ 0 → errs = [] → shelfOk (s.ptrOff core pi) 1 = true → shelfOk (s.ptrOff core pd) n = true → s.place core pt 0 = some tb →
      let io := s.ptrOff core pi
      let dst := s.ptrOff core pd
      let off := tb.off + 64 * (if shelfReadable io then leNat ((s.rdLine core spShelf io).take 4) else 0) * n
      let i := Instr.xfrGather core ta pi pt n pd rt errs
      let j := s.xfrJob core i [io, dst, off, tb.core, tb.space]
      let c := s.cycle core
      let op := partOp 5 c j [{ port := 5, line := io / 64, wide := false }]
      off + 64 * n ≤ spaceSize tb.space → tb.space ≤ 1 →
      (rt = 0 → tb.core = core → Issues i s core [op]) ∧
      (rt = 0 → tb.space = 1 →
        (∀ (u : State) (accs : List Acc), CleanRead u core accs 5 io false →
          u.landOp core accs op = u.addOps core (segOps 5 c (linesAt off n) ++ (List.range n).map (fun k =>
            partOp 5 (c + 16 + 3 * k / 5) { j with k := k + 1 } []))) ∧
        (∀ (u : State) (accs : List Acc) (k at_ : Nat), u.landOp core accs (partOp 5 at_ { j with k := k + 1 } []) = u.addOps core
          [writeOp 5 (c + (s.core core).flX + 3 * k / 5) spShelf (dst + 64 * k) (u.cabRd core (off + 64 * k) true) ta.fill])) ∧
      (rt = 1 → tb.core ≠ core → s.samePart core tb.core = true → s.flowsOf core < 4 → Issues i s core [op] ∧
        let ls := flowLines { space := tb.space, core := tb.core, off := off } { space := spShelf, core := core, off := dst } n
        ∀ (u : State) (accs : List Acc), CleanRead u core accs 5 io false →
          ∃ x, u.landOp core accs op = { u with
              flows := u.flows ++ [{ id := u.netId, core := core, lane := j.ctx.lane, lines := ls }]
              net := u.net ++ [x], netId := u.netId + 2 } ∧ x.msg = .request u.netId ∧ x.route = u.meshRoute core tb.core))

/-- R149, R151, R155 to R159, R257 to R259: the drawer instructions complete. A map load fetches the record of each lane with a new occupant and
caches it; a scatter places the accepted positions of its shard, nothing of a voided lane, into the drawers of the position's slot only, takes a slot off
the free list for a drawer it opens, and with none left reports `KVX`; a release returns the slots of the listed map index. -/
def Obligations.DrawerInstructions : Prop :=
  ∀ (s : State) (core : CoreId) (ta : Ta) (asg pc : Nat) (a : Asg), s.asg core asg = some a →
    let off := s.ptrOff core pc
    let c := s.cycle core
    (∀ l, l ≤ 32 → (a.stride = 0 ∨ shelfOk off (l * a.stride) = true) →
      let j := s.xfrJob core (.xfrMapload core ta asg pc l) [off]
      Yields (.xfrMapload core ta asg pc l) s (fun t => OnlyCore s t core ∧
        (∀ lane, lane < l → entNew (s.sheetEnt core lane) = true →
          let m := entMap (s.sheetEnt core lane)
          fget 0 (t.core core).maps (asg * 32 + lane) = 1 + m + 8192 * (off + 64 * lane * a.stride) ∧
          ∀ k, k < a.stride →
            let x := lane * a.stride + k
            partOp 5 (c + 16 + 3 * x / 5) { j with k := x, offs := [off, a.recordAt m + 64 * k] } [] ∈ (t.core core).ops)) ∧
      ∀ (u : State) (accs : List Acc) (x from_ at_ : Nat),
        u.landOp core accs (partOp 5 at_ { j with k := x, offs := [off, from_] } []) = u.addOps core
          [writeOp 5 (c + (s.core core).flX + (3 * x + 2) / 5) spShelf (off + 64 * x) (u.cabRd core from_ true) ta.fill]) ∧
    (∀ lane py nb tr, nb ≤ 16 → nb ≠ 0 → lane < 32 → s.place core py (a.h * drawerLines a.format) = some tr → tr.space = 0 →
      shelfOk off a.stride = true →
      let ent := s.sheetEnt core lane
      let cnt := if entKind ent = 3 then leNat (((s.laneWord core lane).drop 4).take 1) % 16 else entN ent
      let mine := (List.range (Nat.min cnt nb)).filter (fun i => decide (a.shardOf (entMap ent) ((entPos0 ent + i) / 16) = a.shard))
      let i := Instr.xfrScatter core lane asg ⟨py, []⟩ pc nb
      let tray := [wa tr.space tr.core tr.off, off, entMap ent, entPos0 ent]
      let j := { s.xfrJob core i tray with lat := s.lat core 7 }
      (mine = [] → Yields i s (fun t => t = s)) ∧
      (tr.core = core → mine ≠ [] → Issues i s core (mine.map (fun k => partOp 5 (c + 1 + k * j.lat) { j with k := k } []))) ∧
      (tr.core ≠ core → mine ≠ [] → s.samePart core tr.core = true → s.flowsOf core < 4 → Yields i s (fun t =>
        ∃ f x, t = { s with flows := s.flows ++ [f], net := s.net ++ [x], netId := s.netId + 2, cores := t.cores } ∧ CoresOnly s t [core] ∧
          f.id = s.netId ∧ f.core = core ∧ f.pull = true ∧ x.msg = .request s.netId ∧ x.route = s.meshRoute core tr.core)) ∧
      ∀ (u : State) (accs : List Acc) (k at_ : Nat), k < 16 → u.asg core asg = some a →
        (u.wordFlag core lane 1 = true → u.landOp core accs (partOp 5 at_ { j with k := k } []) = u) ∧
        (u.wordFlag core lane 1 = false → u.landOp core accs (partOp 5 at_ { j with k := k } []) =
          u.addOps core [partOp 5 (u.cycle core + j.lat - 1) { j with k := 64 + k } []]) ∧
        ((∀ x, u.isBad core spShelf x = false) →
          let rec_ := ((List.range a.stride).map (fun l => u.rdLine core spShelf (off + 64 * l))).flatten
          let d := (entPos0 ent + k) / 16 / a.s
          let t := u.landOp core accs (partOp 5 at_ { j with k := 64 + k } [])
          d < a.kmax →
          (d < mapCount rec_ → t = { u with mem := t.mem, cores := t.cores } ∧ CoresOnly u t [core] ∧
            MemOnly u t (fun x => ∃ h, h < a.h ∧ InRun (wa spCabinet core (a.drawerAt (mapSlot rec_ d) h)) (drawerBytes a.format) x)) ∧
          (d = mapCount rec_ → u.freeSlots core asg ≠ 0 → t.freeSlots core asg = u.freeSlots core asg - 1 ∧ t.net = u.net ∧
            t.flows = u.flows) ∧
          (d = mapCount rec_ → u.freeSlots core asg = 0 → t.wordFlag core lane 4 = true ∧
            MemOnly u t (InRun (wa spShelf core (wordOff lane + 5)) 1) ∧
            (∀ p, u.partOf core = some p → ∃ x, t.net = u.net ++ [x] ∧ x.vc = 3 ∧
              x.msg = .vc3 (.laneState p core lane (t.laneWord core lane)))))) ∧
    (∀ amask,
      let i := Instr.xfrRelease core amask
      let op := partOp 5 (c + 15 + 2 * s.returned core amask) (s.xfrJob core i []) []
      Issues i s core [op] ∧
      ∀ (u : State) (accs : List Acc),
        let t := u.landOp core accs op
        ((∀ l, l < 32 → entRelv (u.sheetEnt core l) = false) → t = u) ∧
        (∀ l, u.asg core asg = some a → asg < 8 → amask = 2 ^ asg → l < 32 →
          (∀ j, j < 32 → (entRelv (u.sheetEnt core j) = true ↔ j = l)) →
          t.freeSlots core asg =
            (u.freeSlots core asg + Nat.min (mapCount (u.mapRec core a (entRel (u.sheetEnt core l)))) a.kmax) % 2 ^ 16))

/-- R260, R550: a signal and a lane state word leave as one VC3 message for the South harbour and change nothing else; a digest flush reads and zeroes
the lane's slots, a line in every 8 cycles, and with digests enabled appends their accumulations as one record to the ring.
Where the rules leave a point open, the model's choice stands: log entry 12. -/
def Obligations.MessagesAndDigests : Prop :=
  ∀ (s : State) (core : CoreId) (lane ctr add : Nat),
    (s.coreOk core = true → Yields (.xfrSignal core ctr add) s (fun t => ∃ x, t = { s with net := s.net ++ [x], netId := s.netId + 1 } ∧
      x.vc = 3 ∧ x.msg = .vc3 (.sync ctr add) ∧ x.route = s.meshRoute core southHarbour)) ∧
    (lane < 32 → (s.partOf core = none → Yields (.xfrEmit core lane) s (fun t => t = s)) ∧
      (∀ p, s.partOf core = some p → Yields (.xfrEmit core lane) s (fun t => ∃ x,
        t = { s with net := s.net ++ [x], netId := s.netId + 1 } ∧ x.vc = 3 ∧
        x.msg = .vc3 (.laneState p core lane (s.laneWord core lane)) ∧ x.route = s.meshRoute core southHarbour))) ∧
    (lane < 32 →
      let j := s.xfrJob core (.xfrDflush core lane) []
      Issues (.xfrDflush core lane) s core [partOp 5 (s.cycle core + 7) j []] ∧
      ∀ (u : State) (accs : List Acc) (k at_ : Nat) (got : Bytes), k ≤ 7 → got.length = 64 * k →
        let slot := 0x3F4000 + 512 * lane + 64 * k
        let got' := got ++ u.rdLine core spShelf slot
        let t := u.landOp core accs (partOp 5 at_ { j with k := k, got := got } [])
        let ring := (u.coreRec core).digBase + 576 * (u.regN (u.sreg core 0x940) % (u.coreRec core).digRecords)
        t.rd (wa spShelf core slot) 64 = List.replicate 64 0 ∧ CoresOnly u t [core] ∧
        (k < 7 → MemOnly u t (InRun (wa spShelf core slot) 64) ∧ t.regs = u.regs ∧
          partOp 5 (u.cycle core + 8) { j with k := k + 1, got := got' } [] ∈ (t.core core).ops) ∧
        (k = 7 → (u.partAt core).digestsOn = false → MemOnly u t (InRun (wa spShelf core slot) 64) ∧ t.regs = u.regs) ∧
        (k = 7 → (u.partAt core).digestsOn = true → (u.coreRec core).digRecords ≠ 0 →
          t.regN (u.sreg core 0x940) = (u.regN (u.sreg core 0x940) + 1) % 2 ^ 32 ∧ RegsOnly u t [u.sreg core 0x940] ∧
          ((u.core core).digBad.contains lane = false →
            ∀ i, i < 8 → t.rd (wa spCabinet core (ring + 64 + 64 * i)) 64 = piece got' i)))

/-! ## Shelf and score memory -/

/-- R176 to R180, R184, R186, R190: the service of the shelf. A grant serves the lane-sheet delivery at the front of its source first, one grant in a
core cycle; a line write it performs leaves the line as written and Full; a core at retention is granted nothing. A corrected line is written back
in a slot of its bay. The bays that no slot of a group of 8 cycles was free in are those that a class S access took in every one of them; such a
group is counted.
R195: a score codeword read without an error changes nothing; a correctable one is counted; one found uncorrectable is counted and declares an
item of cause 6; the isle controller's rewrite leaves the codeword as the layout image has it and lowers the item.
Where the rules leave a point open, the model's choice stands: log entries 9, 15. -/
def Obligations.ShelfServiceAndScoreCodewords : Prop :=
  (
  (∀ (s : State) (core : CoreId) (isle site bay : Nat) (errs : List LineErr) (bays : List Nat),
    Yields (.shfHazResume isle site) s (fun t =>
      (s.coreAt isle site = none → t = s) ∧
      (∀ c p, s.coreAt isle site = some c → s.partOf c = some p →
        (t.part p).items = lowerFirst c 7 s.cyc (s.part p).items ∧ OnlyPart s t p)) ∧
    Yields (.uPortGrant core errs) s (fun t =>
      (s.retained core = true → t = s) ∧ ((s.core core).uq = [] → t = s) ∧ ((s.core core).uAt = s.cyc + 1 → t = s) ∧
      (∀ u bs, s.retained core = false → (s.core core).uAt ≠ s.cyc + 1 →
        firstOf ((s.core core).uq.filter (fun u => decide (u.at_ ≤ s.cyc))) 4 = some u → u.act = .write bs →
        bayFree (s.busyBays core ++ (s.core core).wbBays s.cyc) u = true →
        (t.core core).uq = (s.core core).uq.erase u ∧ (t.core core).uAt = s.cyc + 1 ∧ CoresOnly s t [core] ∧ t.out = s.out ∧
        (u.space = 0 → u.off % 64 = 0 → bs.length = 64 →
          t.rdLine core spShelf u.off = bs ∧ t.full core spShelf (u.off / 64) = true ∧
          MemOnly s t (InRun (wa spShelf core u.off) 64) ∧ RegsOnly s t [s.sreg core 0x892]))) ∧
    Yields (.shelfCorrectedWriteback core bay) s (fun t => OnlyCore s t core ∧
      ((∀ p ∈ (s.core core).wback, p.2 % 4 ≠ bay) → t = s) ∧ (s.retained core = true → t = s) ∧
      (∀ p rest, (s.core core).wback = p :: rest → p.2 % 4 = bay → s.retained core = false →
        (s.busyBays core).contains bay = false → fget 0 (s.core core).wbAt bay ≠ s.cyc + 1 →
        (t.core core).wback = rest ∧ fget 0 (t.core core).wbAt bay = s.cyc + 1)) ∧
    Yields (.uSlotGroupEnd core bays) s (fun t => (((s.core core).missed = [] ∨ (s.core core).missed ≠ bays) → t = s) ∧
      ((s.core core).missed ≠ [] → (s.core core).missed = bays →
        t.fld (s.sreg core 0x892) 23 8 = Nat.min (s.fld (s.sreg core 0x892) 23 8 + 1) 65535 ∧ (t.core core).missed = [] ∧ t.mem = s.mem ∧
        t.parts = s.parts ∧ CoresOnly s t [core] ∧ RegsLog s t [s.sreg core 0x892]))) ∧
  (∀ (k : Core) (accs : List Acc) (time bay : Nat), bay < 4 →
    (time % 8 = 7 → (bay ∈ (k.noteSlots time accs).missed ↔ bay ∉ k.slots ∧ ∃ a ∈ accs, a.line % 4 = bay)) ∧
    (time % 8 ≠ 7 → (bay ∈ (k.noteSlots time accs).slots ↔ bay ∈ k.slots ∨ ∀ a ∈ accs, a.line % 4 ≠ bay)))
  ) ∧ (
  ∀ (s : State) (core : CoreId) (cw p : Nat) (err : BitVec 544), s.partOf core = some p →
    (((s.core core).scoreBad.contains cw = true ∨ 16384 ≤ cw ∨ err = 0) → Yields (.scoreEccUncorrectable core ⟨cw, err⟩) s (fun t => t = s)) ∧
    ((s.core core).scoreBad.contains cw = false → cw < 16384 → decodeErr err = .bad →
      Yields (.scoreEccUncorrectable core ⟨cw, err⟩) s (fun t =>
        (t.core core).scoreBad = (s.core core).scoreBad ++ [cw] ∧
        (t.part p).items = (s.part p).items ++ [{ core := core, cause := 6, up := s.cyc }] ∧
        t.fld (s.sreg core 0x8A0) 31 16 = Nat.min (s.fld (s.sreg core 0x8A0) 31 16 + 1) 65535 ∧
        t.mem = s.mem ∧ CoresOnly s t [core] ∧ PartsOnly s t [p] ∧ RegsLog s t [s.sreg core 0x8A0])) ∧
    ((s.core core).scoreBad.contains cw = false → cw < 16384 → decodeErr err ≠ .bad → decodeErr err ≠ .clean →
      Yields (.scoreEccUncorrectable core ⟨cw, err⟩) s (fun t => OnlyRegs s t [s.sreg core 0x8A0] ∧
        t.fld (s.sreg core 0x8A0) 15 0 = Nat.min (s.fld (s.sreg core 0x8A0) 15 0 + 1) 65535 ∧
        t.fld (s.sreg core 0x8A0) 31 16 = s.fld (s.sreg core 0x8A0) 31 16)) ∧
    (∀ data : Bytes, (s.core core).scoreBad.contains cw = true → s.icUp (s.physIsle (cIsle core)) = true → data.length = 64 →
      Yields (.scoreCodewordRewritten core cw data) s (fun t =>
        (t.core core).scoreBad.contains cw = false ∧ t.rd (wa spScore core (64 * cw)) 64 = data ∧
        (t.part p).items = lowerFirst core 6 s.cyc (s.part p).items ∧ t.regs = s.regs ∧ CoresOnly s t [core] ∧ PartsOnly s t [p] ∧
        MemOnly s t (InRun (wa spScore core (64 * cw)) 64)))
  )

/-! ## The stall wave -/

/-- R278, R279, R283, R288: the stall wave. RUN falls two cycles after BUSY appears at the root, unless the partition is held, and rises two cycles after
it disappears; a stall is counted; a core freezes and resumes when the wave has reached it, and a wire that was outvoted raises `NET_EVENT` bit 4;
a start pulse is remembered with its cycle. Each event without its condition changes nothing.
Where the rules leave a point open, the model's choice stands: log entries 3, 18, 99. -/
def Obligations.StallWave : Prop :=
  ∀ (s : State) (core : CoreId) (part cause : Nat),
    Yields (.stallItemComplete core cause) s (fun t =>
      (∀ p, s.partOf core = some p → cause = 4 → (s.partAt core).sheetReady = true →
        (t.part p).items = lowerFirst core cause s.cyc (s.part p).items ∧ OnlyPart s t p) ∧
      ((cause ≠ 4 ∨ (s.partAt core).sheetReady = false) → t = s)) ∧
    Yields (.stop part) s (fun t =>
      ((s.part part).loaded = true → (s.part part).run = true → (s.part part).held = false → 2 ≤ s.cyc →
        s.busyAt (s.part part) (s.cyc - 2) = true →
        (t.part part).run = false ∧ (t.part part).waves = (s.cyc, false) :: (s.part part).waves ∧
        t.regN (rSch (0xF20 + part)) = Nat.min (s.regN (rSch (0xF20 + part)) + 1) (2 ^ 32 - 1) ∧
        t = { s with parts := t.parts, regs := t.regs } ∧ PartsOnly s t [part] ∧ RegsOnly s t [rSch (0xF20 + part)]) ∧
      ((s.busyAt (s.part part) (s.cyc - 2) = false ∨ (s.part part).held = true) → t = s)) ∧
    Yields (.go part) s (fun t => OnlyPart s t part ∧
      ((s.part part).loaded = true → (s.part part).run = false → 2 ≤ s.cyc → s.busyAt (s.part part) (s.cyc - 2) = false →
        (t.part part).run = true ∧ (t.part part).waves = (s.cyc, true) :: (s.part part).waves) ∧
      (s.busyAt (s.part part) (s.cyc - 2) = true → t = s)) ∧
    Yields (.coreFreeze ⟨core, false⟩) s (fun t => OnlyCore s t core ∧
      ((s.partAt core).loaded = true → (s.core core).frozen = false → (s.partAt core).runAt (s.dist (s.partAt core) core) s.cyc = false →
        (t.core core).frozen = true ∧ (t.core core).frozenAt = s.cyc) ∧
      ((s.partAt core).runAt (s.dist (s.partAt core) core) s.cyc = true → t = s)) ∧
    Yields (.coreFreeze ⟨core, true⟩) s (fun t => (t.reg (rIsle (s.physIsle (cIsle core)) 0x8B5)).getLsbD 4 = true ∧ CoresOnly s t [core] ∧
      t.mem = s.mem ∧ t.parts = s.parts) ∧
    Yields (.coreResume ⟨core, false⟩) s (fun t => OnlyCore s t core ∧
      ((s.core core).frozen = true → (s.partAt core).runAt (s.dist (s.partAt core) core) s.cyc = true → (t.core core).frozen = false) ∧
      ((s.partAt core).runAt (s.dist (s.partAt core) core) s.cyc = false → t = s)) ∧
    Yields (.coreResume ⟨core, true⟩) s (fun t => (t.reg (rIsle (s.physIsle (cIsle core)) 0x8B5)).getLsbD 4 = true ∧ CoresOnly s t [core] ∧
      t.mem = s.mem ∧ t.parts = s.parts) ∧
    Yields (.start part) s (fun t => OnlyPart s t part ∧
      ((s.part part).loaded = true → (s.part part).liveValid = true → (s.part part).wop = none → (s.part part).recovery = none →
        (s.part part).unloading = false → ((s.part part).held = true ∨ (s.part part).halted = true ∨ (s.part part).started = false) →
        (t.part part).started = true ∧ (t.part part).held = false ∧ (t.part part).halted = false ∧
        (t.part part).startAt = some s.cyc) ∧
      (((s.part part).loaded = false ∨ (s.part part).liveValid = false) → t = s))

/-! ## Beats and pauses -/

/-- R201, R223, R283: a beat boundary of a partition that runs: the next beat begins, numbered from 0, with the sheet consumed; on every core of the
partition the pointers, loop counters, open loops and poison flags are cleared and the fetch leads are 16; after a start pulse the cores begin in
step with their root; only the sheets and lane state words of its cores change in memory. A boundary that is not due changes nothing.
Where the rules leave a point open, the model's choice stands: log entries 20, 31. -/
def Obligations.BeatBegins : Prop :=
  ∀ (s : State) (part : Nat),
    let q := s.part part
    ((q.loaded = false ∨ q.started = false ∨ q.held = true ∨ q.halted = true ∨ q.run = false ∨ q.sheetReady = false) →
      Yields (.beatBoundary part) s (fun t => t = s)) ∧
    (q.loaded = true → q.started = true → q.held = false → q.halted = false → q.run = true → q.sheetReady = true →
      q.wop = none → q.unloading = false →
      ((q.startAt = none ∧ q.begun = true ∧ q.beatLen.getD q.variant 0 ≤ q.score) ∨ (∃ t0, q.startAt = some t0 ∧ t0 + q.dmax ≤ s.cyc)) →
      Yields (.beatBoundary part) s (fun t =>
        (t.part part).begun = true ∧ (t.part part).beat = (if q.begun then q.beat + 1 else 0) ∧ (t.part part).sheet = none ∧
        (t.part part).score = 0 ∧ (t.part part).startAt = none ∧ PartsOnly s t [part] ∧
        (∀ c ∈ s.partCores q, (t.core c).pts = [] ∧ (t.core c).lcs = [] ∧ (t.core c).loops = [] ∧ (t.core c).poison = 0 ∧
          (t.core c).flA = 16 ∧ (t.core c).flX = 16 ∧ (t.core c).nextAt = 0 ∧
          (q.startAt.isSome = true → (t.core c).clk = q.total ∧ (t.core c).frozen = false)) ∧
        (∀ c, c ∉ s.partCores q → c ≠ s.rootOf q → t.core c = s.core c) ∧
        MemOnly s t (fun x => ∃ c, c ∈ s.partCores q ∧ InRun (wa spShelf c 0x3F0000) 0x1800 x)))

/-- R203, R339, R448: a sheet that is not in place two cycles before the boundary stalls its partition from there; an arriving line of a lane goes to the
core's U port, for its next-sheet area; a pause frame fixes its duty and its paused slots, as many of 16 as the duty says, `W` cycles before it
(the first after a start pulse three cycles before it: the model's choice, log entry 99); a paused slot raises cause 5 for 2,048 cycles.
Where the rules leave a point open, the model's choice stands: log entries 21, 99. -/
def Obligations.SheetsAndPauses : Prop :=
  (∀ (s : State) (core : CoreId) (part lane slot : Nat) (data : Bytes),
    (let q := s.part part
     Yields (.laneSheetIncomplete part) s (fun t =>
      (q.loaded = true → q.begun = true → q.held = false → q.halted = false → q.startAt = none → q.run = true → q.openItem 4 = false →
        q.sheetReady = false → q.beatLen.getD q.variant 0 ≤ q.score + 2 → s.partOf (s.rootOf q) = some part → OnlyPart s t part ∧
        (t.part part).items = q.items ++ [{ core := s.rootOf q, cause := 4, up := s.cyc }]) ∧
      (q.score + (2 * q.dmax + 16) + s.sheetBound q < q.beatLen.getD q.variant 0 → q.score + 2 < q.beatLen.getD q.variant 0 → t = s) ∧
      (q.sheetReady = true → t = s))) ∧
    Yields (.laneSheetDelivery core lane data) s (fun t =>
      ((∀ l ∈ s.net, l.msg ≠ .vc3 (.sheetLine core lane data)) → t = s) ∧ (s.retained core = true → t = s) ∧
      (∀ pre l post, s.net = pre ++ l :: post → (∀ x ∈ pre, x.msg ≠ .vc3 (.sheetLine core lane data)) →
        l.msg = .vc3 (.sheetLine core lane data) → l.there s.cyc = true → s.retained core = false →
        t = { s with net := s.net.filter (fun x => x.id != l.id), cores := t.cores } ∧ CoresOnly s t [core] ∧
        (t.core core).uq = (s.core core).uq ++
          [{ src := .sheet, space := spShelf, off := nextSheetOff lane, act := .write data, at_ := s.cyc }])) ∧
    (let q := s.part part
     let w := 2 * q.dmax + 16
     Yields (.pauseFrame part) s (fun t =>
      (q.loaded = true → q.begun = true → q.firstFrame = false → q.frameStart ≤ s.cyc + w → (s.cyc + w - q.frameStart) % 32768 = 0 →
        s.duty part < 32 →
        (t.part part).appliedDuty = s.duty part ∧ (t.part part).pausedSlots = pausedOf (s.duty part) ∧
        t.fld (rPwr (0x20 + part)) 4 0 = s.duty part ∧ t = { s with parts := t.parts, regs := t.regs } ∧ PartsOnly s t [part] ∧
        RegsOnly s t [rPwr (0x20 + part)]) ∧
      (∀ t0, q.loaded = true → q.frameKeep = false → q.startAt = some t0 → s.cyc + 3 = t0 + q.dmax → s.duty part < 32 →
        (t.part part).appliedDuty = s.duty part ∧ (t.part part).pausedSlots = pausedOf (s.duty part) ∧
        (t.part part).frameStart = s.cyc + 3 ∧ t.fld (rPwr (0x20 + part)) 4 0 = s.duty part) ∧
      ((q.loaded = false ∨ (q.firstFrame = false ∧ (s.cyc + w - q.frameStart) % 32768 ≠ 0)) → t = s))) ∧
    (let q := s.part part
     Yields (.pauseSlot part slot) s (fun t => OnlyPart s t part ∧
      (q.loaded = true → q.begun = true → q.firstFrame = false → q.held = false → q.pausedSlots.contains slot = true → q.frameStart ≤ s.cyc + 2 →
        (s.cyc + 2 - q.frameStart) % 32768 = 2048 * slot →
        (t.part part).items = q.items ++ [{ core := s.rootOf q, cause := 5, up := s.cyc, down := some (s.cyc + 2048) }]) ∧
      ((q.held = true ∨ q.pausedSlots.contains slot = false) → t = s)))) ∧
  (∀ d, d ≤ 16 → (pausedOf d).length = d)

/-! ## Mesh and straits -/

/-- R184, R264, R266, R285, R288: a scheduled line that has arrived enters its core's memory through port 6 in its delivery cycle of the receiver's score
time, or at once where it comes later, with its fill bit and its poison flag; before that cycle, or at a frozen core, it waits. A line whose check
finds no error is left as it is; an uncorrectable one is all ones from then on and raises `NET_EVENT` bit 5.
R265, R266, R272, R273: the arbitration of a link. Of the scheduled lines that leave a router by one link in a cycle that of the lowest input
goes on and the others are dropped, each flit counted; VC2 and VC3 take the cycles that no scheduled flit uses, in a group of 8 cycles VC3 first
while it has had fewer than 2 of them, lane-sheet lines before its other messages, the flows of VC2 in turn. A route goes along the core row
first and then along the column, one hop for each step.
Where the rules leave a point open, the model's choice stands: log entries 18, 22, 27. -/
def Obligations.LinesAndLinks : Prop :=
  (
  ∀ (s : State) (core : CoreId) (n id : Nat) (err : BitVec 544) (l : NetLine),
    (s.lineOf id = none → Yields (.vc0FlitDelivery core n id) s (fun t => t = s) ∧ Yields (.linkLineArrival id err) s (fun t => t = s)) ∧
    (s.lineOf id = some l →
      (∀ m, l.msg = .vc0 m → Yields (.vc0FlitDelivery core n id) s (fun t =>
        ((m.core ≠ core ∨ m.line ≠ n ∨ l.there s.cyc = false ∨ (s.core m.core).frozen = true ∨ (s.core m.core).clk < l.sch) → t = s) ∧
        (m.core = core → m.line = n → l.there s.cyc = true → (s.core m.core).frozen = false → l.sch ≤ (s.core m.core).clk →
          t.net = s.net.filter (fun x => x.id != id) ∧ CoresOnly s t [m.core] ∧ t.regs = s.regs ∧
          writeOp 6 (Nat.max l.sch (s.cycle m.core)) m.space (64 * m.line) m.data m.fill ∈ (t.core m.core).ops ∧
          (m.poison = false → t.mem = s.mem) ∧ (m.poison = true → m.lane < 32 → t.poisoned m.core m.lane = true)))) ∧
      Yields (.linkLineArrival id err) s (fun t =>
        (l.there s.cyc = false → t = s) ∧
        (err = 0 → t = s) ∧
        (l.there s.cyc = true → isHarbour l.here = false → decodeErr err = .bad →
          t.fld (s.sreg l.here 0x8B4) 15 8 = Nat.min (s.fld (s.sreg l.here 0x8B4) 15 8 + 1) 255 ∧
          (t.reg (rIsle (s.physIsle (cIsle l.here)) 0x8B5)).getLsbD 5 = true ∧ t.mem = s.mem ∧ t.flows = s.flows ∧
          (∀ m, l.msg = .vc0 m → ∃ y, t.lineOf id = some y ∧ y.msg = .vc0 { m with data := onesLine }) ∧
          (∀ f k d p, l.msg = .flowLine f k d p → ∃ y, t.lineOf id = some y ∧ y.msg = .flowLine f k onesLine p) ∧
          RegsLog s t [s.sreg l.here 0x8B4, rIsle (s.physIsle (cIsle l.here)) 0x8B5])))
  ) ∧ (
  (∀ (s : State) (key : Nat),
    (∀ l ∈ s.net, ∀ h, s.leaving l = some h → linkKey l.here h ≠ key) → s.linkVc0 key = s) ∧
  (∀ (s : State) (key : Nat) (pre post : List NetLine) (w : NetLine) (h : Hop), s.net = pre ++ w :: post → s.leaving w = some h → linkKey w.here h = key →
    (∀ l ∈ pre ++ post, ∀ h', s.leaving l = some h' → linkKey l.here h' = key → w.inp < l.inp) →
    (∀ l ∈ s.net, l.left = none) → (∀ l ∈ pre ++ post, l.id ≠ w.id) → h.strait = false →
    let t := s.linkVc0 key
    (∃ x ∈ t.net, x.id = w.id ∧ x.here = h.dest ∧ x.route = w.route.drop 1 ∧ x.inp = inputOf h.dir ∧ x.at_ = s.cyc + 2 ∧ x.sch = w.sch + 2) ∧
    (∀ l ∈ pre ++ post, ∀ h', s.leaving l = some h' → linkKey l.here h' = key → ∀ x ∈ t.net, x.id ≠ l.id)) ∧
  (∀ (l : List NetLine) (x : NetLine), vc3Next l = some x → x ∈ l ∧ x.vc = 3 ∧
    (∀ y ∈ l, y.vc = 3 → y.half = true → x.half = true) ∧
    ((∀ y ∈ l, y.half = false) → (∃ y ∈ l, y.vc = 3 ∧ ∃ c n d, y.msg = .vc3 (.sheetLine c n d)) → ∃ c n d, x.msg = .vc3 (.sheetLine c n d))) ∧
  (∀ (last : Nat) (l : List NetLine) (x : NetLine), vc2Next last l = some x → (∀ y ∈ l, y.half = false) → x ∈ l ∧ x.vc = 2 ∧
    (∀ y ∈ l, y.vc = 2 → (last < x.msg.flow → last < y.msg.flow → x.msg.flow ≤ y.msg.flow) ∧
      (x.msg.flow ≤ last → y.msg.flow ≤ last ∧ x.msg.flow ≤ y.msg.flow))) ∧
  (∀ (s : State) (key : Nat) (x : NetLine), x ∈ s.net → s.waitsFor x = some key → s.vc0Uses x.here key = true →
    (∀ y ∈ s.net, s.waitsFor y = some key → y.here = x.here) → s.linkFree key = s) ∧
  (∀ (s : State) (a b : CoreId), isHarbour a = false → isHarbour b = false →
    let d (x y : Nat) : Nat := (x - y) + (y - x)
    (s.meshRoute a b).length = d (s.gridCol a) (s.gridCol b) + d (s.gridRow a) (s.gridRow b) ∧
    (∀ i h, (s.meshRoute a b)[i]? = some h → (h.dir % 2 = 1 ↔ i < d (s.gridCol a) (s.gridCol b))))
  )

/-- R268 to R271: a strait flit is checked in the cycle its check is due; one that is received without error stays as it is, one whose CRC differs
is refused; at its NAK the first retry counts in the slot's counter and further ones as late; after four failures on a channel the flit moves to
a spare of the edge, kept at both its ends, and with none left the channel has failed; a scheduled line not there in its cycle declares an item of
cause 3.
Where the rules leave a point open, the model's choice stands: log entries 29, 38. -/
def Obligations.StraitRetries : Prop :=
  ∀ (s : State) (isle edge ch k : Nat) (f : StraitFlit), edge < 4 → ch < 12 → isle < 80 →
    let key := chKey isle edge ch
    let x : StraitCh := fget {} s.strait key
    (x.buf[k]? = none → ∀ err : BitVec 336, Yields (.straitCrcCheck isle edge ⟨ch, k⟩ err) s (fun t => t = s) ∧
      Yields (.straitNak isle edge ⟨ch, k⟩) s (fun t => t = s)) ∧
    (x.buf[k]? = some f → x.failed = false →
      (∀ err : BitVec 336, f.nak = false →
        Yields (.straitCrcCheck isle edge ⟨ch, k⟩ err) s (fun t => t = { s with strait := t.strait } ∧
          (∀ i, i ≠ key → fget {} t.strait i = (fget {} s.strait i : StraitCh)) ∧
          ((err = 0 ∨ s.cyc ≠ f.launch + straitCheckAt f.total) → t = s) ∧
          (s.cyc = f.launch + straitCheckAt f.total → crc32 (err.toNat % 2 ^ 304) 304 0 ≠ err.toNat / 2 ^ 304 →
            fget {} t.strait key = x.setFlit k { f with fails := f.fails + 1, total := f.total + 1, nak := true }))) ∧
      (f.nak = false → Yields (.straitNak isle edge ⟨ch, k⟩) s (fun t => t = s)) ∧
      (f.nak = true → f.fails < 4 →
        Yields (.straitNak isle edge ⟨ch, k⟩) s (fun t => fget {} t.strait key = x.setFlit k { f with nak := false } ∧ t.mem = s.mem ∧
          (f.total = 1 → t.fld (rStrait isle edge) 15 0 = Nat.min (s.fld (rStrait isle edge) 15 0 + 1) 65535) ∧
          (f.total ≠ 1 → t.fld (rStrait isle edge) 23 16 = Nat.min (s.fld (rStrait isle edge) 23 16 + 1) 255 ∧
            (t.reg (rIsle isle 0x8B5)).getLsbD 0 = true))) ∧
      (f.nak = true → 4 ≤ f.fails → 1 ≤ s.fld (rStrait isle edge) 25 24 → s.fld (rStrait isle edge) 25 24 ≤ 2 →
        Yields (.straitNak isle edge ⟨ch, k⟩) s (fun t => fget {} t.strait key = x.setFlit k { f with fails := 0, nak := false } ∧
          (∀ e ∈ s.edgeEnds isle edge, t.fld (rStrait e.1 e.2) 25 24 = s.fld (rStrait isle edge) 25 24 - 1 ∧
            fget 0 t.chMap (chKey e.1 e.2 ch) = 3 - s.fld (rStrait isle edge) 25 24) ∧
          (t.reg (rIsle isle 0x8B5)).getLsbD 1 = true ∧ t.mem = s.mem)) ∧
      (f.nak = true → 4 ≤ f.fails → s.fld (rStrait isle edge) 25 24 = 0 →
        Yields (.straitNak isle edge ⟨ch, k⟩) s (fun t => fget {} t.strait key = { x with failed := true } ∧
          (∀ e ∈ s.edgeEnds isle edge, t.fld (rStrait e.1 e.2) 26 26 = 1) ∧ (t.reg (rIsle isle 0x8B5)).getLsbD 2 = true ∧
          t.mem = s.mem))) ∧
    (∀ id, (∀ l, s.lineOf id = some l → l.crosses isle edge = false ∨ s.lateLine l (s.core l.here).clk = false) →
      Yields (.straitRetryLate isle edge id) s (fun t => t = s)) ∧
    (∀ id l p, s.lineOf id = some l → l.crosses isle edge = true → s.lateLine l (s.core l.here).clk = true → s.partOf l.here = some p →
      Yields (.straitRetryLate isle edge id) s (fun t => t = { s with net := t.net, parts := t.parts } ∧ PartsOnly s t [p] ∧
        (t.part p).items = (s.part p).items ++ [{ core := l.here, cause := 3, up := s.cyc }] ∧
        (∀ y, t.lineOf id = some y → y.late = true)))

/-- R179, R272, R275, R296, R359, R366: a line of a flow that arrives enters the U port's queue of a shelf, or waits for a write of the slice it goes to;
a read request asks the memory it names for its line; a counter addition adds modulo 2^32; a lane state word goes to its partition; lines and messages
to a core at retention wait.
Where the rules leave a point open, the model's choice stands: log entry 30. -/
def Obligations.RemoteDeliveries : Prop :=
  ∀ (s : State) (core : CoreId) (id : Nat) (l : NetLine),
    ((∀ x, s.lineOf id = some x → x.here ≠ core) → Yields (.vc2LineDelivery core id) s (fun t => t = s)) ∧
    ((∀ x ∈ s.net, x.id ≠ id) → Yields (.vc3MessageDelivery id) s (fun t => t = s)) ∧
    (s.lineOf id = some l → l.vc = 2 → (l.there s.cyc = false ∨ s.retained l.here = true) → Yields (.vc2LineDelivery l.here id) s (fun t => t = s)) ∧
    (∀ f x k data, s.lineOf id = some l → l.vc = 2 → l.there s.cyc = true → s.retained l.here = false → l.msg = .flowLine f.id k data false →
      s.flows.find? (fun g => decide (g.id = f.id)) = some f → f.lines[k]? = some x → f.pull = false →
      Yields (.vc2LineDelivery l.here id) s (fun t => t.net = s.net.filter (fun x => x.id != id) ∧ t.mem = s.mem ∧ CoresOnly s t [l.here] ∧
        (∀ g ∈ s.flows, g.id ≠ f.id → g.done < g.lines.length → g ∈ t.flows) ∧
        (waSpace x.dst ≠ 1 → (t.core l.here).uq = (s.core l.here).uq ++
          [{ src := .vc2, space := spShelf, off := waOff x.dst, act := .write data, at_ := s.cyc }]) ∧
        (∀ o, waSpace x.dst = 1 → s.cabReach l.here (waOff x.dst) false = some o → s.cabWritable l.here (waOff x.dst) false = true →
          { prio := 2, off := o, kind := .flowWrite data } ∈ (t.core l.here).claims))) ∧
    (∀ f x, s.lineOf id = some l → l.vc = 2 → l.there s.cyc = true → s.retained l.here = false → l.msg = .request f.id →
      s.flows.find? (fun g => decide (g.id = f.id)) = some f → f.lines[0]? = some x →
      Yields (.vc2LineDelivery l.here id) s (fun t =>
        t = { s with net := s.net.filter (fun x => x.id != id), cores := t.cores } ∧ CoresOnly s t [l.here] ∧
        (waSpace x.src = 1 → { prio := 2, off := waOff x.src, kind := .flow f.id 0 } ∈ (t.core l.here).claims) ∧
        (waSpace x.src ≠ 1 → (t.core l.here).uq = (s.core l.here).uq ++
          [{ src := .vc2, space := spShelf, off := waOff x.src, act := .flow f.id 0, at_ := s.cyc }]))) ∧
    (∀ m, s.lineOf id = some l → (∀ x ∈ s.net, x.id = id → x = l) → l.msg = .vc3 m → l.there s.cyc = true →
      (s.vc3Waits m = true → Yields (.vc3MessageDelivery id) s (fun t => t = s)) ∧
      (∀ ctr add, m = .sync ctr add → s.schUp = true → Yields (.vc3MessageDelivery id) s (fun t =>
        t = { s with net := s.net.filter (fun x => x.id != id), sync := t.sync } ∧
        fget 0 t.sync (ctr % 65536) = (fget 0 s.sync (ctr % 65536) + add) % 2 ^ 32 ∧
        (∀ n, n ≠ ctr % 65536 → fget 0 t.sync n = fget 0 s.sync n))) ∧
      (∀ p c lane word, m = .laneState p c lane word → (s.reg64 (rCwy (0x40 + 2 * p))) / 2 ^ 15 % 2 = 0 →
        Yields (.vc3MessageDelivery id) s (fun t => (t.part p).words = (s.part p).words ++ [(lane, word)] ∧
          t = { s with net := s.net.filter (fun x => x.id != id), parts := t.parts } ∧ PartsOnly s t [p])) ∧
      (∀ c entry, m = .void c entry → s.retained c = false → Yields (.vc3MessageDelivery id) s (fun t =>
        t = { s with net := s.net.filter (fun x => x.id != id), cores := t.cores } ∧ CoresOnly s t [c] ∧
        (∀ lane, lane < 32 → (names (s.sheetEnt c lane) entry = true ↔
          { src := .vc3, space := spShelf, off := wordOff lane, act := .void entry, at_ := s.cyc } ∈ (t.core c).uq.drop (s.core c).uq.length)) ∧
        (∀ lane, lane < 32 → names (s.rdLine c spShelf (nextSheetOff lane)) entry = true → lane ∈ (t.core c).voidNext))) ∧
      (∀ c lane data, m = .sheetLine c lane data → s.retained c = false → Yields (.vc3MessageDelivery id) s (fun t =>
        t = { s with net := s.net.filter (fun x => x.id != id), cores := t.cores } ∧ CoresOnly s t [c] ∧
        (t.core c).uq = (s.core c).uq ++
          [{ src := .sheet, space := spShelf, off := nextSheetOff lane, act := .write data, at_ := s.cyc }])))

/-! ## The cabinet -/

/-- R298 to R300: every bank of every slice of an isle that is on or parked owes one more row at each tick, at most 8; a refresh pays one row of a bank
that has no line to serve and that no claim waits for; the refreshes of a collision end when its core has been frozen long enough, with every debt paid and cause 2 lowered.
Where the rules leave a point open, the model's choice stands: log entries 23, 24. -/
def Obligations.RefreshDebts : Prop :=
  ∀ (s : State) (core : CoreId) (isle bank : Nat),
    Yields (.refreshDebtTick isle) s (fun t => t.mem = s.mem ∧ t.parts = s.parts ∧
      (s.isleState isle ≠ 2 → s.isleState isle ≠ 3 → t = s) ∧
      (∀ b, (s.isleState isle = 2 ∨ s.isleState isle = 3) → core ∈ s.slicesOf isle → b < 16 →
        fget 0 (t.core core).debts b = Nat.min 8 (fget 0 (s.core core).debts b + 1)) ∧
      (core ∉ s.slicesOf isle → t.core core = s.core core)) ∧
    Yields (.bankRefresh core bank) s (fun t => OnlyCore s t core ∧
      (bank < 16 → fget 0 (s.core core).debts bank ≠ 0 → s.bankBusy core bank = false →
        ((∀ c ∈ (s.core core).claims, bankOf (c.off / 64) ≠ bank) ∨
          (4 ≤ fget 0 (s.core core).debts bank ∧ ∀ c ∈ (s.core core).claims, bankOf (c.off / 64) = bank → 3 ≤ c.prio)) →
        fget 0 (t.core core).debts bank = fget 0 (s.core core).debts bank - 1 ∧
        (∀ b, b ≠ bank → fget 0 (t.core core).debts b = fget 0 (s.core core).debts b)) ∧
      (fget 0 (s.core core).debts bank = 0 → t = s) ∧ (s.bankBusy core bank = true → t = s) ∧
      (∀ c ∈ (s.core core).claims, bankOf (c.off / 64) = bank → (fget 0 (s.core core).debts bank < 4 ∨ c.prio < 3) → t = s)) ∧
    Yields (.collisionRefreshDone core) s (fun t =>
      (∀ p, s.partOf core = some p → (s.core core).frozen = true → s.outstanding core 2 = true →
        (s.core core).frozenAt + 32 * (s.core core).maxDebt ≤ s.cyc →
        (t.core core).debts = [] ∧ (t.part p).items = lowerFirst core 2 s.cyc (s.part p).items ∧
        t = { s with cores := t.cores, parts := t.parts } ∧ CoresOnly s t [core] ∧ PartsOnly s t [p]) ∧
      ((s.core core).frozen = false → t = s))

/-- R294 to R296, R300, R301, R303 to R308: a foreground line outside the slice stops as an error, one that no segment request asked for does not
come; one without an error changes nothing but the list of lines due; an uncorrectable one is counted, marked and raises `CAB_EVENT` bit 0. The
background serves its first waiting claim, and with none the patrol; the write buffer drains its oldest line, but not during a refresh of R300; a
retired row's map entry names the next spare row of its bank.
Where the rules leave a point open, the model's choice stands: log entries 9, 26, 101. -/
def Obligations.CabinetLines : Prop :=
  ∀ (s : State) (core : CoreId) (line bank row : Nat) (err : BitVec 544),
    let due := (s.core core).due.any (fun d => decide (d.1 = line))
    (0x5800000 ≤ 64 * line → Faults (.foregroundSegmentLine core line err) s .address) ∧
    (64 * line < 0x5800000 → Yields (.foregroundSegmentLine core line err) s (fun t => t.mem = s.mem ∧ CoresOnly s t [core] ∧
      t.parts = s.parts ∧ (due = false → t = s) ∧
      (due = true → (t.core core).due = (s.core core).due.eraseP (fun d => decide (d.1 = line))) ∧
      (err = 0 → s.isBad core spCabinet (64 * line) = false → OnlyCore s t core) ∧
      (due = true → decodeErr err = .bad → s.isBad core spCabinet (64 * line) = false →
        t.isBad core spCabinet (64 * line) = true ∧ (t.reg (rIsle (s.isleOf core) 0x8C5)).getLsbD 0 = true ∧
        t.fld (s.sreg core 0x8C0) 31 16 = Nat.min (s.fld (s.sreg core 0x8C0) 31 16 + 1) 65535 ∧
        t.regN (s.sreg core 0x8C1) = syndrome err % 2 ^ 32))) ∧
    ((s.refreshing core = true ∨ s.fetchWaits core = true) → Yields (.backgroundClaim core err) s (fun t => t = s)) ∧
    (∀ c rest, s.refreshing core = false → s.fetchWaits core = false → (s.core core).claims = c :: rest →
      Yields (.backgroundClaim core err) s (fun t =>
        (∀ data, c.kind = .flowWrite data → data.length = 64 → c.off % 64 = 0 →
          t.rdLine core spCabinet c.off = data ∧ (t.core core).claims = rest ∧ OnlyCore { s with mem := t.mem } t core ∧
          MemOnly s t (InRun (wa spCabinet core c.off) 64)) ∧
        (c.kind = .corrected → (t.core core).claims = rest ∧ OnlyCore s t core) ∧
        (c.kind = .rowCopy → s.icUp (s.isleOf core) = true → (t.core core).claims = rest ∧ OnlyCore s t core))) ∧
    ((s.core core).claims = [] → s.refreshing core = false → s.fetchWaits core = false → s.icUp (s.isleOf core) = true →
      s.isBad core spCabinet (64 * (s.core core).patrol) = false →
      Yields (.backgroundClaim core 0) s (fun t => OnlyCore s t core ∧
        (t.core core).patrol = (if 64 * ((s.core core).patrol + 1) < 0x5800000 then (s.core core).patrol + 1 else 0))) ∧
    Yields (.writeBufferDrain core) s (fun t => (s.refreshing core = true → t = s) ∧ OnlyCore s t core ∧
      (s.refreshing core = false → (t.core core).wbuf = (s.core core).wbuf.drop 1)) ∧
    ((s.core core).rowWait.contains (bank * 4096 + row) = true → s.icUp (s.isleOf core) = true →
      (∀ c ∈ (s.core core).claims, c.kind ≠ .rowCopy) →
      Yields (.rowRetirement core bank row) s (fun t =>
        fget 0 (t.core core).rowMap (bank * 4096 + row) = fget 0 (s.core core).spareUsed bank + 1 ∧
        fget 0 (t.core core).spareUsed bank = fget 0 (s.core core).spareUsed bank + 1 ∧
        (t.core core).rowWait.contains (bank * 4096 + row) = false ∧
        (t.reg (rIsle (s.isleOf core) 0x8C5)).getLsbD 1 = true ∧ t.mem = s.mem ∧ CoresOnly s t [core] ∧ t.parts = s.parts))

/-! ## Loads, unloads, resets of a partition -/

/-- Table 7-10: the status word of a load. -/
def loadWord (status detail phase : Nat) : Nat := status % 256 + detail % 65536 * 256 + phase % 8 * 2 ^ 24

/-- R34, R212 to R216, Table 7-9: the steps of a load. Each acts only on a load in its phase while the serving scheduler runs; a failed read ends the load
with `DMA` (0x13), a rectangle beyond the grid with `PLACE` (0x12), a failed check with that check's status; an image that passes them with
another rectangle than the header's is an error; a load programmed leaves the partition loaded, without a live version and before its first beat,
and reports its mode.
Where the rules leave a point open, the model's choice stands: log entries 11, 91. -/
def Obligations.LoadSteps : Prop :=
  ∀ (s : State) (part : Nat) (l : LoadSt), part < 8 → s.loadOf part = some l →
    ((l.phase ≠ 1 ∨ s.schUp = false) → ∀ h, Yields (.loadHeaderRead part h) s (fun t => t = s)) ∧
    (l.phase = 1 → s.schUp = true → Yields (.loadHeaderRead part none) s (fun t =>
      t.regN (rSch (0xF00 + part)) = loadWord 0x13 0 1 ∧ t.loadOf part = none ∧ t = { s with regs := t.regs, loads := t.loads } ∧
      RegsOnly s t [rSch (0xF00 + part)])) ∧
    (∀ h, l.phase = 1 → s.schUp = true → s.ideOk 0 = true → (8 < l.row + hdrRows h ∨ s.gridCols < l.col + hdrCols h) →
      Yields (.loadHeaderRead part (some h)) s (fun t =>
        t.regN (rSch (0xF00 + part)) = loadWord 0x12 0xFFFF 1 ∧ t.loadOf part = none ∧ t = { s with regs := t.regs, loads := t.loads })) ∧
    (∀ h, l.phase = 1 → s.schUp = true → s.ideOk 0 = true → l.row + hdrRows h ≤ 8 → l.col + hdrCols h ≤ s.gridCols →
      let isles := ((List.range (hdrRows h)).map (fun r => (List.range (hdrCols h)).map (fun c => (l.row + r) * s.gridCols + l.col + c))).flatten
      (∀ i ∈ isles, s.isleOut i = false ∧ s.partOfIsle i = none ∧ s.loadAt i = none) → s.edgeFail = [] →
      Yields (.loadHeaderRead part (some h)) s (fun t =>
        t.loadOf part = some { l with rows := hdrRows h, cols := hdrCols h, phase := 2 } ∧
        t.regN (rSch (0xF00 + part)) = loadWord 1 0 2 ∧ t = { s with regs := t.regs, loads := t.loads })) ∧
    (l.phase = 2 → s.schUp = true → Yields (.loadTransferDone part none) s (fun t =>
      t.regN (rSch (0xF00 + part)) = loadWord 0x13 0 2 ∧ t.loadOf part = none ∧ t = { s with regs := t.regs, loads := t.loads })) ∧
    (∀ b, l.phase = 2 → s.schUp = true → s.ideOk 0 = true →
      (s.checkImage b l.addr l.len l.row l.col = none → (hdrRows b ≠ l.rows ∨ hdrCols b ≠ l.cols) →
        Faults (.loadTransferDone part (some b)) s .contract) ∧
      ((s.checkImage b l.addr l.len l.row l.col = none → hdrRows b = l.rows ∧ hdrCols b = l.cols) →
        Yields (.loadTransferDone part (some b)) s (fun t => t = { s with regs := t.regs, loads := t.loads, cores := t.cores } ∧
          CoresOnly s t (s.loadCores l) ∧
          match s.checkImage b l.addr l.len l.row l.col with
          | some (st, d) => t.regN (rSch (0xF00 + part)) = loadWord st d 3 ∧ t.loadOf part = none
          | none => t.regN (rSch (0xF00 + part)) = loadWord 1 0 4 ∧ t.loadOf part = some { l with phase := 4 }))) ∧
    (l.phase = 4 → s.stagingWaits l = true → Yields (.loadProgrammed part) s (fun t => t = s)) ∧
    (l.phase = 4 → s.schUp = true → s.stagingWaits l = false →
      (∀ i ∈ s.partIsles (layoutPart (s.staged l) l.addr l.len l.row l.col), s.icUp (s.physIsle i) = true) →
      Yields (.loadProgrammed part) s (fun t =>
        (t.part part).loaded = true ∧ (t.part part).liveValid = false ∧ (t.part part).begun = false ∧ (t.part part).started = false ∧
        (t.part part).beat = 0 ∧ (t.part part).imageAddr = l.addr ∧ t.loadOf part = none ∧ PartsOnly s t [part] ∧
        t.regN (rSch (0xF00 + part)) = loadWord 2 0 5 ∧ t.reqs = s.reqs ∧ t.out = s.out ++ [.modeReport part (hdrMode (s.staged l))]))

/-- R333, R432: an unload asked for ends the partition at once where it runs no beats, else every request acts as cancelled and the partition
unloads; a partition reset halts the partition, and with the image read again the layout stands before beat 0, its cores' accumulators
undefined (R121), and the start pulse goes;
a failed read leaves it halted with `READ`. Without the request for it neither does anything.
Where the rules leave a point open, the model's choice stands: log entries 2, 11, 92. -/
def Obligations.UnloadAndPartitionReset : Prop :=
  ∀ (s : State) (part : Nat) (image : Option Bytes), part < 8 →
    let q := s.part part
    ((q.loaded = false ∨ s.schUp = false ∨ (q.asked ≠ 1 ∧ (q.unloading = false ∨ q.idle = false))) →
      Yields (.unload part) s (fun t => t = s)) ∧
    (q.loaded = true → s.schUp = true → q.unloading = true → q.idle = true →
      Yields (.unload part) s (fun t => (t.part part).loaded = false ∧ t.regN (rSch (0xF00 + part)) = 0)) ∧
    (q.loaded = true → q.asked = 1 → s.schUp = true → q.wop = none → q.staging = none →
      (q.idle = true → Yields (.unload part) s (fun t => (t.part part).loaded = false ∧ t.regN (rSch (0xF00 + part)) = 0)) ∧
      (q.idle = false → Yields (.unload part) s (fun t => (t.part part).unloading = true ∧ (t.part part).asked = 0 ∧
        (t.part part).loaded = true))) ∧
    ((q.loaded = false ∨ q.asked ≠ 2 ∨ s.schUp = false) → Yields (.partitionReset part image) s (fun t => t = s)) ∧
    (q.loaded = true → q.asked = 2 → s.schUp = true →
      Yields (.partitionReset part none) s (fun t => (t.part part).halted = true ∧ (t.part part).asked = 0 ∧
        t.regN (rSch (0xF00 + part)) = loadWord 0x13 0 4)) ∧
    (∀ img, q.loaded = true → q.asked = 2 → s.schUp = true → q.wop = none → q.liveValid = true → s.ideOk 0 = true → image = some img →
      Yields (.partitionReset part image) s (fun t => (t.part part).halted = false ∧ (t.part part).started = true ∧
        (t.part part).startAt = some s.cyc ∧ (t.part part).begun = false ∧ (t.part part).beat = 0 ∧ (t.part part).recovery = none ∧
        (∀ c ∈ s.partCores q, ∀ l, fget 0 (t.core c).acc l = 0) ∧ t.regN (rSch (0xF00 + part)) = loadWord 2 0 5))

/-! ## Weight images -/

/-- R320 to R322, R328, R336, Table 11-6: staging and the commands on the inactive slot, each with the status it leaves; a command refused
changes neither slot.
Where the rules leave a point open, the model's choice stands: log entries 11, 94. -/
def Obligations.WeightStaging : Prop :=
  ∀ (s : State) (part : Nat), part < 8 →
    let q := s.part part
    (s.blocksOpen = false → ∀ rq k, ∀ i ∈ [Instr.stage part, .swap part, .rollback part, .release part, .abandon part, .stagingShareWrite rq part k],
      Yields i s (fun t => t = s)) ∧
    (s.blocksOpen = true → Yields (.stage part) s (fun t => PartsOnly s t [part] ∧ t.mem = s.mem ∧
      (q.loaded = false → (t.part part).wswStatus = 0x21 ∧ (t.part part).other = q.other) ∧
      (q.loaded = true → q.busy = true → (t.part part).wswStatus = 0x20 ∧ (t.part part).other = q.other) ∧
      (q.loaded = true → q.busy = false → q.other ≠ 0 → (t.part part).wswStatus = 0x26 ∧ (t.part part).other = q.other) ∧
      (q.loaded = true → q.busy = false → q.other = 0 →
        (t.part part).staging = some { limit := if s.fld (rSch (0x1002 + 8 * part)) 3 0 = 0 then some 0 else none } ∧ (t.part part).other = 1 ∧ (t.part part).wswStatus = 1 ∧ OnlyPart s t part))) ∧
    (∀ st off, q.staging = some st → s.schUp = true → off = st.img.length → st.limit = none →
      Yields (.stagingDataArrived part off none) s (fun t => (t.part part).staging = none ∧ (t.part part).other = 0 ∧
        (t.part part).wswStatus = 0x27 ∧ PartsOnly s t [part] ∧ t.mem = s.mem) ∧
      (∀ bs, s.ideOk (s.dmaFn part) = true → st.img.length + bs.length < 256 →
        Yields (.stagingDataArrived part off (some bs)) s (fun t => (t.part part).staging = some { st with img := st.img ++ bs } ∧
          OnlyPart s t part))) ∧
    (∀ st, q.staging = some st → 256 ≤ st.img.length → wimgLen st.img ≤ st.img.length → s.schUp = true → q.recovery = none →
      (∀ c ∈ s.partCores q, s.writesWait c = false) →
      Yields (.stagingComplete part) s (fun t => PartsOnly s t [part] ∧ t.mem = s.mem ∧ (t.part part).staging = none ∧
        (Sha.sha256 ((st.img.take (wimgLen st.img)).drop 128) ≠ wimgDigest st.img →
          (t.part part).other = 0 ∧ (t.part part).wswStatus = 0x23) ∧
        (Sha.sha256 ((st.img.take (wimgLen st.img)).drop 128) = wimgDigest st.img →
          (t.part part).other = 2 ∧ (t.part part).otag = wimgTag st.img ∧ (t.part part).wswStatus = 4))) ∧
    (∀ st, q.staging = some st → st.limit = some st.img.length → ∀ bs off, Yields (.stagingDataArrived part off (some bs)) s (fun t => t = s)) ∧
    (∀ rq share, share < 16 → s.blocksOpen = true → Yields (.stagingShareWrite rq part share) s (fun t =>
      t = { s with regs := t.regs, parts := t.parts, free := t.free } ∧ RegsOnly s t [rSch (0x1002 + 8 * part)] ∧ PartsOnly s t [part] ∧
      (rq = .pf → t.fld (rSch (0x1002 + 8 * part)) 3 0 = share ∧
        (share ≠ 0 → (t.part part).staging = q.staging.map (fun st => { st with limit := none })) ∧
        (∀ st, share = 0 → s.fld (rSch (0x1002 + 8 * part)) 3 0 ≠ 0 → q.staging = some st →
          ∃ n, (t.part part).staging = some { st with limit := some (st.img.length + n) })) ∧ (rq = .bmc → t = s))) ∧
    (s.blocksOpen = true → Yields (.release part) s (fun t => PartsOnly s t [part] ∧ t.mem = s.mem ∧
      (q.busy = true → (t.part part).wswStatus = 0x20) ∧
      (q.busy = false → q.loaded = true → q.other = 3 → q.unloading = false →
        (t.part part).other = 0 ∧ (t.part part).otag = 0 ∧ (t.part part).wswStatus = 4 ∧ (t.part part).liveSlot = q.liveSlot) ∧
      (q.busy = false → q.other ≠ 3 → (t.part part).wswStatus = 0x26 ∧ (t.part part).other = q.other))) ∧
    (s.blocksOpen = true → Yields (.abandon part) s (fun t => PartsOnly s t [part] ∧ t.mem = s.mem ∧
      (q.wop = none → q.staging.isSome = true → (t.part part).staging = none ∧ (t.part part).other = 0 ∧ (t.part part).wswStatus = 0x29) ∧
      (q.wop = none → q.staging = none → q.other = 2 → (t.part part).other = 0 ∧ (t.part part).wswStatus = 0x29) ∧
      (q.wop = none → q.staging = none → q.other ≠ 2 → (t.part part).wswStatus = 0x26 ∧ (t.part part).other = q.other)))

/-- R323, R324, R326 to R328, R334: swaps. A swap or rollback of a live version waits for its barrier; a wave rewrites its cores and the next
follows; after the last one the live slot switches, the old one becomes Rollback and the partition starts; a bad line reverts to
the old version, whose slot stays live.
Where the rules leave a point open, the model's choice stands: log entries 94, 99. -/
def Obligations.WeightSwaps : Prop :=
  ∀ (s : State) (part : Nat), part < 8 →
    let q := s.part part
    (∀ need op (i : Instr), ((i = .swap part ∧ need = 2 ∧ op = 2) ∨ (i = .rollback part ∧ need = 3 ∧ op = 3)) → s.blocksOpen = true →
      Yields i s (fun t => PartsOnly s t [part] ∧ t.mem = s.mem ∧
        (q.busy = true → (t.part part).wswStatus = 0x20 ∧ (t.part part).wop = q.wop) ∧
        (q.busy = false → (q.loaded = false ∨ q.other ≠ need ∨ q.unloading = true) → (t.part part).wswStatus = 0x26 ∧ (t.part part).wop = none) ∧
        (q.busy = false → q.loaded = true → q.other = need → q.unloading = false → q.liveValid = true →
          (t.part part).wop = some { op := op, step := 1 } ∧ (t.part part).wswStatus = 2 ∧ (t.part part).liveSlot = q.liveSlot ∧
          OnlyPart s t part))) ∧
    (q.wop = none → Yields (.rewriteWaveDone part none) s (fun t => t = s)) ∧
    (∀ w wave next rest, q.wop = some w → w.step = 4 → w.waves = wave :: next :: rest → w.reverting = none →
      (∀ i ∈ wave, s.slotBad (s.dirCore q i) q.sourceSlot (s.afmtOfSlot (s.dirCore q i) q.sourceSlot) = false) →
      Yields (.rewriteWaveDone part none) s (fun t => (t.part part).wop = some { w with waves := next :: rest } ∧
        t = { s with arrs := t.arrs, parts := t.parts } ∧ PartsOnly s t [part])) ∧
    (∀ w wave, q.wop = some w → w.step = 4 → w.waves = [wave] → w.reverting = none → w.first = false → s.schUp = true → q.recovery = none →
      (∀ i ∈ wave, s.slotBad (s.dirCore q i) q.sourceSlot (s.afmtOfSlot (s.dirCore q i) q.sourceSlot) = false) →
      Yields (.rewriteWaveDone part none) s (fun t => (t.part part).liveSlot = 1 - q.liveSlot ∧ (t.part part).liveValid = true ∧
        (t.part part).other = 3 ∧ (t.part part).tag = q.otag ∧ (t.part part).otag = q.tag ∧ (t.part part).wop = none ∧
        (t.part part).wswStatus = 4 ∧ (t.part part).startAt = some s.cyc ∧ (t.part part).held = false ∧ t.mem = s.mem)) ∧
    (∀ w wave rest i, q.wop = some w → w.step = 4 → w.waves = wave :: rest → w.reverting = none → i ∈ wave → w.first = false →
      Yields (.rewriteWaveDone part (some i)) s (fun t => (t.part part).liveSlot = q.liveSlot ∧ (t.part part).other = 0 ∧
        t.arrs = s.arrs ∧ t.mem = s.mem))

/-! ## Critical commands -/

/-- R529 to R532, Table 20-5: the checks of a critical command, on a record the BMC sends to raise the power limit, in their order: the first that
fails decides the status and nothing else happens but what the refusal itself counts; a record that passes sets the requester's counter and
raises the limit, to at most 25,000 W and never down.
Where the rules leave a point open, the model's choice stands: log entries 10, 93. -/
def Obligations.CommandChecks : Prop :=
  ∀ (s : State) (r : Bytes), r.length = 64 → fieldN r 0 1 = 2 →
    let refused (t : State) (st : Nat) : Prop := t.out = s.out ++ [.mctp 0x7E (natLe 1 st ++ natLe 1 2)]
    let tag : Bytes := (Sha.hmac s.cmdKey (r.take 48)).take 16
    (s.secUp = false → Yields (.raisePowerLimit (.bmc r)) s (fun t => refused t 0x10 ∧ t = { s with out := t.out })) ∧
    (s.secUp = true → s.fld (rSec 0) 1 1 = 1 → Yields (.raisePowerLimit (.bmc r)) s (fun t => refused t 0x11 ∧ t = { s with out := t.out })) ∧
    (s.secUp = true → s.fld (rSec 0) 1 1 = 0 →
      (s.fld (rSec 0) 0 0 = 0 → Yields (.raisePowerLimit (.bmc r)) s (fun t => refused t 0x13 ∧ t = { s with out := t.out })) ∧
      (s.fld (rSec 0) 0 0 = 1 →
        ((fieldN r 1 1 ≠ 1 ∨ s.fld (rSec 4) 0 0 = 0) →
          Yields (.raisePowerLimit (.bmc r)) s (fun t => refused t 0x14 ∧ t = { s with out := t.out })) ∧
        (fieldN r 1 1 = 1 → s.fld (rSec 4) 0 0 = 1 →
          (fieldN r 16 8 ≠ s.reg64 (rSec 2) →
            Yields (.raisePowerLimit (.bmc r)) s (fun t => refused t 0x15 ∧ t = { s with out := t.out })) ∧
          (fieldN r 16 8 = s.reg64 (rSec 2) → (r.drop 48).take 16 ≠ tag → Yields (.raisePowerLimit (.bmc r)) s (fun t => refused t 0x16 ∧
            t.fld (rSec 0) 31 16 = Nat.min (s.fld (rSec 0) 31 16 + 1) 65535 ∧ (t.reg (rSec 0x30)).getLsbD 0 = true ∧
            t.reg (rPwr 0) = s.reg (rPwr 0) ∧ t.reg64 (rSec 0x26) = s.reg64 (rSec 0x26))) ∧
          (fieldN r 16 8 = s.reg64 (rSec 2) → (r.drop 48).take 16 = tag → fieldN r 8 8 ≤ s.reg64 (rSec 0x26) →
            Yields (.raisePowerLimit (.bmc r)) s (fun t => refused t 0x17 ∧ (t.reg (rSec 0x30)).getLsbD 1 = true ∧
              t.reg (rPwr 0) = s.reg (rPwr 0) ∧ t.reg64 (rSec 0x26) = s.reg64 (rSec 0x26))) ∧
          (fieldN r 16 8 = s.reg64 (rSec 2) → (r.drop 48).take 16 = tag → s.reg64 (rSec 0x26) < fieldN r 8 8 → s.argOk 1 r = true →
            s.devState ≠ 6 → s.devState ≠ 9 → s.devState ≠ 10 →
            Yields (.raisePowerLimit (.bmc r)) s (fun t => refused t 2 ∧ t.reg64 (rSec 0x26) = fieldN r 8 8 ∧
              t.fld (rPwr 0) 14 0 = Nat.max (s.fld (rPwr 0) 14 0) (Nat.min (fieldN r 24 4) 25000) ∧
              t = { s with regs := t.regs, out := t.out } ∧ RegsOnly s t [rSec 0x26, rSec 0x27, rPwr 0])))))

/-- R212, R333, R432, R453, R506, R507, R523, R533, R74, R488: what each critical command does once its record `r` has passed the checks and left
its check stage, the state then being `u`; without such a record it does nothing more.
Where the rules leave a point open, the model's choice stands: log entries 92, 93. -/
def Obligations.CriticalCommandsAct : Prop :=
  ∀ (s u : State) (src : CmdSrc) (r : Bytes),
    (∀ desc, s.takeCmd src 3 = (u, some r) → desc.length = 32 →
      ((Sha.sha256 desc).take 8 ≠ (r.drop 32).take 8 →
        Yields (.partitionReconfiguration src desc) s (fun t => t = u.secStatus src 3 0x1A)) ∧
      ((Sha.sha256 desc).take 8 = (r.drop 32).take 8 → zeros desc 15 32 = true → fieldN desc 12 1 < 8 →
        let p := fieldN desc 12 1
        (fieldN desc 0 8 = 0 → (u.devState = 7 ∨ u.devState = 8) → (u.part p).loaded = true → Yields (.partitionReconfiguration src desc) s (fun t =>
          (t.part p).asked = 1 ∧ PartsOnly u t [p] ∧ (t.part p).loaded = true)) ∧
        (fieldN desc 0 8 = 1 → (u.devState = 7 ∨ u.devState = 8) → (u.part p).loaded = true → Yields (.partitionReconfiguration src desc) s (fun t =>
          (t.part p).asked = 2 ∧ PartsOnly u t [p] ∧ (t.part p).loaded = true)) ∧
        (fieldN desc 0 8 ≤ 1 → u.loadOf p = none → u.devState ≠ 7 → u.devState ≠ 8 → Yields (.partitionReconfiguration src desc) s (fun t =>
          t.regN (rSch (0xF00 + p)) = loadWord 0x10 u.devState 1 ∧ t.parts = u.parts)) ∧
        (2 ≤ fieldN desc 0 8 → fieldN desc 0 8 % 4096 = 0 → u.loadOf p = none → (u.devState = 7 ∨ u.devState = 8) →
          (u.part p).loaded = false → Yields (.partitionReconfiguration src desc) s (fun t =>
            t.loads = u.loads ++ [{ addr := fieldN desc 0 8, len := fieldN desc 8 4, part := p, row := fieldN desc 13 1
                                    col := fieldN desc 14 1 }] ∧ t.regN (rSch (0xF00 + p)) = 1 + 2 ^ 24)))) ∧
    (s.takeCmd src 4 = (u, some r) →
      (u.fld (rSec 4) 1 1 = 0 → Yields (.enterDebugMode src) s (fun t => t = u.secStatus src 4 0x1B)) ∧
      (∀ p, p < 8 → fieldN r 24 1 = 2 ^ p → u.fld (rSec 4) 1 1 = 1 → (u.part p).debug = false →
        Yields (.enterDebugMode src) s (fun t => PartsOnly u t [p] ∧
          ((u.part p).loaded = true → (t.part p).debugAsk = some true ∧ (t.part p).debug = false ∧ t.debugCount = u.debugCount) ∧
          ((u.part p).loaded = false → (t.part p).debug = true ∧ t.debugCount = u.debugCount + 1 ∧
            (t.reg (rSec 0x30)).getLsbD 4 = true)))) ∧
    (s.takeCmd src 2 = (u, some r) → Yields (.raisePowerLimit src) s (fun t =>
      t.fld (rPwr 0) 14 0 = Nat.max (u.fld (rPwr 0) 14 0) (Nat.min (fieldN r 24 4) 25000))) ∧
    (s.takeCmd src 1 = (u, some r) → Yields (.firmwareUpdate src) s (fun t =>
      (∃ f, t.fwu = some f ∧ f.len = fieldN r 32 4 ∧ f.digest8 = (r.drop 36).take 8 ∧ f.floor = (fieldN r 2 1 % 2 == 1) ∧
        f.pldm = (fieldN r 2 1 / 2 % 2 == 1) ∧ f.window = f.pldm ∧
        (f.pldm = false → t.regN (rSys 0x58) = 1 + 8 * (1 - u.fld (rSys 5) 0 0))))) ∧
    (∀ img pol pref key dg, s.takeCmd src 5 = (u, some r) → img.owner = .valid pol pref key dg → img.readOk = true → img.identOk = true →
      Yields (.keyRotation src img) s (fun t => t.cmdKey = key ∧ t.fld (rSec 0) 0 0 = 1 ∧ t.regN (rSec 4) = pol % 16 ∧
        (t.reg (rSec 0x30)).getLsbD 5 = true)) ∧
    (∀ img, s.takeCmd src 5 = (u, some r) → img.readOk = false →
      Yields (.keyRotation src img) s (fun t => t = u.secStatus src 5 0x1C)) ∧
    (s.takeCmd src 6 = (u, some r) → Yields (.sparePolicyOverride src) s (fun t =>
      (fieldN r 24 1 / 16 % 2 = 1 → t.fld (rSys 0x40) 0 0 = fieldN r 24 1 % 2) ∧
      (fieldN r 24 1 / 32 % 2 = 1 → t.fld (rSys 0x40) 1 1 = fieldN r 24 1 / 2 % 2) ∧
      (∀ i, i < 80 → fieldN r 24 1 / 64 % 2 = 1 → fieldN r 26 10 / 2 ^ i % 2 = 1 →
        t.fld (rIsle i 0x802) 2 2 = fieldN r 24 1 / 4 % 2))) ∧
    (s.secRec = none → Yields (.raisePowerLimit .pf) s (fun t => t = s) ∧ Yields (.firmwareUpdate .pf) s (fun t => t = s) ∧
      Yields (.enterDebugMode .pf) s (fun t => t = s) ∧ Yields (.sparePolicyOverride .pf) s (fun t => t = s))

/-- R506, R517, R532, R534: a firmware update ends done or failed, with its slot in `SYS_FWU_STAT`, and raises the floor only with `FLOOR` and a
higher version, after success; leaving debug mode acts at once on a partition that is unloaded or halted, else at the next beat; the
mailbox's lock ends after 60 s.
Where the rules leave a point open, the model's choice stands: log entry 93. -/
def Obligations.UpdateDebugAndLock : Prop :=
  ∀ (s : State) (img : ImageFacts) (part : Nat),
    (∀ u, s.fwu = some u → u.window = false → u.pldm = false → s.secUp = true →
      let ok := img.readOk && img.sigOk && decide (s.regN (rSec 5) ≤ img.version) && img.digest8 == u.digest8
      Yields (.firmwareUpdateDone img) s (fun t => t.fwu = none ∧
        t.regN (rSys 0x58) = (if ok then 4 else 5) + 8 * (1 - s.fld (rSys 5) 0 0) ∧
        (ok = false → t.reg (rSec 5) = s.reg (rSec 5)) ∧ (u.floor = false → t.reg (rSec 5) = s.reg (rSec 5)) ∧
        (ok = true → u.floor = true → s.regN (rSec 5) < img.version → img.version < 2 ^ 32 →
          t.regN (rSec 5) = img.version ∧ (t.reg (rSec 0x30)).getLsbD 6 = true))) ∧
    (s.fwu = none → Yields (.firmwareUpdateDone img) s (fun t => t = s)) ∧
    Yields (.debugExit part) s (fun t => OnlyPart s t part ∧
      ((s.part part).debug = true → ((s.part part).loaded = false ∨ (s.part part).halted = true) → (t.part part).debug = false) ∧
      ((s.part part).debug = true → (s.part part).loaded = true → (s.part part).halted = false → (s.part part).openItem 7 = false →
        (t.part part).debug = true ∧ (t.part part).debugAsk = some false)) ∧
    Yields .lockoutExpiry s (fun t => OnlyRegs s t [rSec 0] ∧
      (s.fld (rSec 0) 1 1 = 1 → s.lockAt + 60000000000 ≤ s.now → t.fld (rSec 0) 1 1 = 0) ∧
      (s.now < s.lockAt + 60000000000 → t = s))

/-! ## Attestation and IDE -/

/-- R371, R520, R524, R525: SEC's answers while it runs, over DOE once the link is up; else it answers nothing and nothing changes. A third session on one transport is refused.
Where the rules leave a point open, the model's choice stands: log entries 10, 13, 60. -/
def Obligations.AttestationAnswers : Prop :=
  ∀ (s : State) (tr : Transport) (slot off len index sid : Nat) (nonce : Bytes) (ok : Bool),
    (s.spdmReady tr = false → ∀ i ∈ [Instr.getVersion tr, .getCapabilities tr, .negotiateAlgorithms tr, .getDigests tr,
        .getCertificate tr slot off len, .challenge tr slot nonce, .getMeasurements tr index, .keyExchange tr sid, .finish tr sid ok,
        .heartbeat tr sid, .keyUpdate tr sid, .endSession tr sid], Yields i s (fun t => t = s)) ∧
    (s.spdmReady tr = true →
      Yields (.getVersion tr) s (fun t => t = { s with spdm := t.spdm, out := s.out ++ [.spdm tr 4 [0x12]] }) ∧
      Yields (.getCapabilities tr) s (fun t => t = { s with spdm := t.spdm, out := t.out, free := s.free + 1 } ∧
        ∃ b : Bytes, b.length = 4 ∧ t.out = s.out ++ [.spdm tr 0x61 b]) ∧
      Yields (.negotiateAlgorithms tr) s (fun t => t = { s with spdm := t.spdm, out := t.out } ∧ ∃ b, t.out = s.out ++ [.spdm tr 0x63 b]) ∧
      Yields (.getDigests tr) s (fun t => t = { s with out := s.out ++ [.spdm tr 1 (1 :: Sha.sha256 s.chain)] }) ∧
      Yields (.getCertificate tr slot off len) s (fun t => t = { s with out := t.out } ∧
        (slot ≠ 0 → t.out = s.out ++ [.spdm tr 0x7F [1]]) ∧
        (slot = 0 → off ≤ s.chain.length → ∃ hd : Bytes, hd.length = 4 ∧
          t.out = s.out ++ [.spdm tr 2 (hd ++ (s.chain.drop off).take len)])) ∧
      Yields (.challenge tr slot nonce) s (fun t => t = { s with out := t.out, free := t.free } ∧
        (slot = 0 → ∃ sig : Bytes, sig.length = 64 ∧ t.out = s.out ++ [.spdm tr 3 (Sha.sha256 s.chain ++ nonce ++ sig)])) ∧
      Yields (.getMeasurements tr index) s (fun t => t = { s with out := t.out } ∧
        (index = 0 → t.out = s.out ++ [.spdm tr 0x60 [7]]) ∧
        (1 ≤ index → index ≤ 7 → t.out = s.out ++ [.spdm tr 0x60 (s.measBlock index)]) ∧
        (7 < index → index ≠ 0xFF → t.out = s.out ++ [.spdm tr 0x7F [1]])) ∧
      Yields (.keyExchange tr sid) s (fun t =>
        (2 ≤ (s.sessOn tr).length → t = { s with out := s.out ++ [.spdm tr 0x7F [0x0A]] }) ∧
        ((s.sessOn tr).length < 2 → (∀ x ∈ s.sessOn tr, x.2.1 ≠ sid) → t.sess = s.sess ++ [(tr, sid, false)] ∧
          t = { s with sess := t.sess, out := t.out, free := t.free })) ∧
      Yields (.finish tr sid ok) s (fun t => t = { s with sess := t.sess, out := t.out } ∧
        (s.sess.contains (tr, sid, false) = true → ok = true → (tr, sid, true) ∈ t.sess ∧ (tr, sid, false) ∉ t.sess) ∧
        (s.sess.contains (tr, sid, false) = false → t.sess = s.sess)) ∧
      Yields (.heartbeat tr sid) s (fun t => t = { s with out := t.out } ∧
        t.out = s.out ++ [if s.sessOpen tr sid then .spdm tr 0x68 [] else .spdm tr 0x7F [2]]) ∧
      Yields (.keyUpdate tr sid) s (fun t => t = { s with out := t.out } ∧
        t.out = s.out ++ [if s.sessOpen tr sid then .spdm tr 0x69 [] else .spdm tr 0x7F [2]]) ∧
      Yields (.endSession tr sid) s (fun t => t = { s with sess := t.sess, out := t.out } ∧
        (s.sessOpen tr sid = true → ∀ x ∈ t.sess, ¬(x.1 = tr ∧ x.2.1 = sid)) ∧ (s.sessOpen tr sid = false → t.sess = s.sess)))

/-- R526: an IDE stream's keys are programmed over an open DOE session only; K_SET_GO makes it secure; a failure of a secure stream makes it
insecure, with `IDE_FAIL` and its alarm, until it is programmed again.
Where the rules leave a point open, the model's choice stands: log entry 60. -/
def Obligations.IdeStreams : Prop :=
  ∀ (s : State) (sid stream : Nat) (key : Bytes),
    ((s.spdmReady .doe = false ∨ s.sessOpen .doe sid = false ∨ 9 < stream) →
      Yields (.keyProg sid stream key) s (fun t => t = s) ∧ Yields (.kSetGo sid stream) s (fun t => t = s) ∧
      Yields (.kSetStop sid stream) s (fun t => t = s)) ∧
    (s.spdmReady .doe = true → s.sessOpen .doe sid = true → stream ≤ 9 →
      Yields (.keyProg sid stream key) s (fun t => fget 0 t.ide stream = 1 ∧ fget [] t.ideKeys stream = key ∧
        t = { s with ide := t.ide, ideKeys := t.ideKeys, out := t.out } ∧ (∀ k, k ≠ stream → fget 0 t.ide k = fget 0 s.ide k)) ∧
      Yields (.kSetGo sid stream) s (fun t => t = { s with ide := t.ide, out := t.out } ∧
        fget 0 t.ide stream = (if fget 0 s.ide stream = 1 then 2 else fget 0 s.ide stream) ∧
        (∀ k, k ≠ stream → fget 0 t.ide k = fget 0 s.ide k)) ∧
      Yields (.kSetStop sid stream) s (fun t => t = { s with ide := t.ide, out := t.out } ∧
        fget 0 t.ide stream = (if fget 0 s.ide stream = 2 then 1 else fget 0 s.ide stream))) ∧
    Yields (.ideFail stream) s (fun t => (fget 0 s.ide stream ≠ 2 → t = s) ∧
      (fget 0 s.ide stream = 2 → fget 0 t.ide stream = 3 ∧ (t.reg (rSec 0x30)).getLsbD 3 = true ∧ (t.reg (rTel 8)).getLsbD 4 = true ∧
        t.mem = s.mem ∧ t.parts = s.parts ∧ RegsOnly s t [rSec 0x30, rTel 8, rTel 0x14]))

/-! ## Firmware processors and transactions -/

/-- R499 to R502, R515: a watchdog expiry, a trap or the restart command restarts a processor, with its cause, its counters, its event and the
alarm `FIRMWARE` of a fourth restart within 60 s, after which it stays stopped; memory, cores, arrays, partitions and requests stay. A restart
command starts a stopped processor and clears its count. A processor that resumes runs; an isle controller not back after 1 s raises
`IC_LATE` and ends the load that waits for it.
Where the rules leave a point open, the model's choice stands: log entries 42, 90. -/
def Obligations.ProcessorRestarts : Prop :=
  ∀ (s : State) (p : Proc),
    let kept (a b : State) : Prop := b.mem = a.mem ∧ b.cores = a.cores ∧ b.arrs = a.arrs ∧ b.parts = a.parts ∧ b.reqs = a.reqs
    let restarted (u t : State) (x : Proc) (cause n : Nat) : Prop :=
      t.fld (fwReg x) 3 2 = cause ∧ t.fld (fwReg x) 1 0 = (if 4 ≤ n then 2 else 1) ∧
      t.fld (fwReg x) 31 16 = Nat.min (u.fld (fwReg x) 31 16 + 1) 65535 ∧ (t.reg (rSys 0x54)).getLsbD (cause - 1) = true ∧
      (4 ≤ n → (t.reg (rSys 0x54)).getLsbD 3 = true ∧ (t.reg (rTel 8)).getLsbD 3 = true) ∧ kept u t
    (procOk p = true → s.fld (fwReg p) 1 0 = 0 →
      Yields (.watchdogExpiry p) s (fun t => restarted s t p 1 ((s.recent p).length + 1)) ∧
      Yields (.firmwareTrap p) s (fun t => restarted s t p 2 ((s.recent p).length + 1)) ∧
      Yields (.processorResumed p) s (fun t => t = s)) ∧
    (s.fld (fwReg p) 1 0 ≠ 0 → Yields (.watchdogExpiry p) s (fun t => t = s) ∧ Yields (.firmwareTrap p) s (fun t => t = s)) ∧
    (procOk p = true → s.fld (fwReg p) 1 0 = 1 → Yields (.processorResumed p) s (fun t =>
      t.fld (fwReg p) 1 0 = 0 ∧ (p = .sec → OnlyRegs s t [rSys 0x50]) ∧
      (∀ k w, p = .sch → k < 8 → (s.part k).wop = some w → w.step = 5 → w.reverting = none → (s.part k).recovery = none →
        (t.part k).liveSlot = 1 - (s.part k).liveSlot ∧ (t.part k).wop = none ∧ (t.part k).started = true))) ∧
    (s.fld (fwReg p) 1 0 = 2 → Yields (.processorResumed p) s (fun t => t = s)) ∧
    (∀ u src r, s.takeCmd src 7 = (u, some r) →
      let x : Proc := if fieldN r 24 1 = 0 then .sec else if fieldN r 24 1 = 1 then .pwc else if fieldN r 24 1 = 2 then .sch
        else .ic (fieldN r 25 1)
      Yields (.processorRestart src) s (fun t =>
        (u.fld (fwReg x) 1 0 = 2 → restarted u t x 3 0 ∧ t.recent x = []) ∧
        (u.fld (fwReg x) 1 0 ≠ 2 → restarted u t x 3 ((u.recent x).length + 1)))) ∧
    (∀ u src, s.takeCmd src 7 = (u, none) → Yields (.processorRestart src) s (fun t => t = u)) ∧
    (∀ isle t0, fget 0 s.icAt isle = t0 + 1 →
      ((s.icUp isle = true ∨ s.now < t0 + 1000000000) → Yields (.icLate isle) s (fun t => t = s)) ∧
      (s.icUp isle = false → t0 + 1000000000 ≤ s.now → Yields (.icLate isle) s (fun t =>
        (t.reg (rSys 0x54)).getLsbD 4 = true ∧ (t.reg (rTel 8)).getLsbD 3 = true ∧ fget 0 t.icAt isle = 0 ∧ kept s t ∧
        (∀ l ld, s.logicalIsle isle = some l → s.loadAt l = some ld → ld.phase = 4 →
          t.loadOf ld.part = none ∧ (ld.part < 8 → t.regN (rSch (0xF00 + ld.part)) = 0x1D + isle % 65536 * 256 + 4 * 2 ^ 24)))))

/-- R8, R76, R508 to R514: a transaction opens in an Idle slot only; an RWT write goes to the shadow of its writer's open transaction, of at most
512 words, and is counted and ignored without one; a commit passes every value on, at once or to its partition's next beat boundary;
rollback, overflow and the 1 s limit discard the shadow.
Where the rules leave a point open, the model's choice stands: log entry 95. -/
def Obligations.Transactions : Prop :=
  ∀ (s : State) (rq : Requester),
    let closed (t : State) (k st : Nat) : Prop := (t.txSlot k).owner = none ∧ (t.txSlot k).shadow = [] ∧ (t.txSlot k).status = st ∧
      (t.txSlot k).overflow = false ∧ (∀ j, j ≠ k → t.txSlot j = s.txSlot j)
    (∀ id, (slotOf rq = none ∨ s.blocksOpen = false) → Yields (.cfgTxBegin rq id) s (fun t => t = s)) ∧
    (∀ id k, slotOf rq = some k → s.blocksOpen = true → Yields (.cfgTxBegin rq id) s (fun t => t = { s with tx := t.tx } ∧ (∀ j, j ≠ k → t.txSlot j = s.txSlot j) ∧
      ((s.txSlot k).owner = none → (t.txSlot k).owner = some rq ∧ (t.txSlot k).at_ = s.now ∧ (t.txSlot k).shadow = [] ∧
        (t.txSlot k).overflow = false ∧ (t.txSlot k).id = id) ∧
      ((s.txSlot k).owner ≠ none → (t.txSlot k).status = 6 ∧ (t.txSlot k).owner = (s.txSlot k).owner ∧
        (t.txSlot k).shadow = (s.txSlot k).shadow ∧ (t.txSlot k).id = (s.txSlot k).id))) ∧
    (∀ addr v r, s.target rq addr = .reg r → (regAcc r).rwt ≠ 0 → s.takes rq r = true →
      (reservedValue r v = true → Faults (.rwtWrite rq addr v) s .encoding) ∧
      (reservedValue r v = false → s.openSlot rq = none → Yields (.rwtWrite rq addr v) s (fun t =>
        OnlyRegs s t [rCfg 5] ∧ t.regN (rCfg 5) = Nat.min (s.regN (rCfg 5) + 1) (2 ^ 32 - 1))) ∧
      (∀ k, reservedValue r v = false → s.openSlot rq = some k → Yields (.rwtWrite rq addr v) s (fun t =>
        t = { s with tx := t.tx } ∧ (t.txSlot k).owner = (s.txSlot k).owner ∧
        (((∃ x, (r, x) ∈ (s.txSlot k).shadow) ∨ (s.txSlot k).shadow.length < 512) → (r, v) ∈ (t.txSlot k).shadow ∧
          (∀ q x, q ≠ r → ((q, x) ∈ (t.txSlot k).shadow ↔ (q, x) ∈ (s.txSlot k).shadow)) ∧
          (t.txSlot k).overflow = (s.txSlot k).overflow) ∧
        ((∀ x, (r, x) ∉ (s.txSlot k).shadow) → 512 ≤ (s.txSlot k).shadow.length →
          (t.txSlot k).overflow = true ∧ (t.txSlot k).shadow = (s.txSlot k).shadow)))) ∧
    ((s.openSlot rq = none ∨ s.blocksOpen = false) → Yields (.commit rq) s (fun t => t = s) ∧ Yields (.transactionRollback rq) s (fun t => t = s)) ∧
    (∀ k, s.openSlot rq = some k → s.blocksOpen = true →
      Yields (.transactionRollback rq) s (fun t => closed t k 3 ∧ t = { s with tx := t.tx }) ∧
      ((s.txSlot k).overflow = true → Yields (.commit rq) s (fun t => closed t k 5 ∧ LogFrame { s with tx := t.tx } t [])) ∧
      ((s.txSlot k).overflow = false → ((s.txSlot k).shadow.map Prod.fst).Nodup → Yields (.commit rq) s (fun t =>
        (closed t k 1 ∨ closed t k 2) ∧ t = { s with tx := t.tx, regs := t.regs, fresh := t.fresh, parts := t.parts } ∧
        ((∀ x ∈ (s.txSlot k).shadow, x.1 < 0x4400 ∨ 0x4420 ≤ x.1) → closed t k 1) ∧
        (∀ r v, (r, v) ∈ (s.txSlot k).shadow → r ≠ rHost 0 5 → (r < 0x4400 ∨ 0x4420 ≤ r) →
          let w := BitVec.ofNat 32 (regAcc r).rwt &&& v
          (commitPart r = none → t.reg r = w) ∧
          (∀ p, commitPart r = some p →
            (((s.part p).loaded = false ∨ ((s.part p).held = true ∧ (s.part p).wop ≠ none)) → t.reg r = w) ∧
            ((s.part p).loaded = true → ((s.part p).held = false ∨ (s.part p).wop = none) →
              t.reg r = s.reg r ∧ (r, w) ∈ (t.part p).commits)))))) ∧
    (∀ k, Yields (.transactionTimeout k) s (fun t =>
      ((s.txSlot k).owner ≠ none → (s.txSlot k).at_ + 1000000000 ≤ s.now → closed t k 4 ∧ LogFrame { s with tx := t.tx } t []) ∧
      (((s.txSlot k).owner = none ∨ s.now < (s.txSlot k).at_ + 1000000000) → t = s)))

/-! ## Firmware update over PLDM, the event log, the sideband -/

/-- R506, R507: an update through PLDM. RequestUpdate is accepted once, in its window of 60 s and with the authorised length, and is answered
UNABLE_TO_INITIATE_UPDATE (0x8A) otherwise; a second one, a cancellation or a window that closes unused ends the authorisation; the
image's bytes arrive in order, up to the authorised length.
R371, R552, R370, R428: the monitoring answers, the endpoint's address, DOE Discovery, and the loss of the reference clock; Off answers nothing, and DOE Discovery with the link down nothing.
The completion codes and sensor numbers are the model's choice (log entries 54 and 60).
Where the rules leave a point open, the model's choice stands: log entries 13, 14, 59. -/
def Obligations.FirmwareUpdateAndSideband : Prop :=
  (
  ∀ (s : State) (size off : Nat) (data : Bytes),
    let answered (t : State) (code : Byte) : Prop := t.out = s.out ++ [.mctp 5 [code]]
    (s.secReady = false → ∀ i ∈ [Instr.requestUpdate size, .requestFirmwareData off data, .cancelUpdate], Yields i s (fun t => t = s)) ∧
    (s.secReady = true → s.fwu = none →
      Yields (.requestUpdate size) s (fun t => answered t 0x8A ∧ t = { s with out := t.out }) ∧
      Yields (.requestFirmwareData off data) s (fun t => t = s) ∧ Yields .cancelUpdate s (fun t => t = s) ∧
      Yields .pldmWindowExpiry s (fun t => t = s)) ∧
    (∀ u, s.secReady = true → s.fwu = some u → u.pldm = true →
      (u.window = true → s.now < u.at_ + 60000000000 → size = u.len → Yields (.requestUpdate size) s (fun t =>
        answered t 0 ∧ t.fwu = some { u with window := false } ∧ t.regN (rSys 0x58) = 1 + 8 * (1 - s.fld (rSys 5) 0 0) ∧
        t = { s with out := t.out, fwu := t.fwu, regs := t.regs })) ∧
      (u.window = true → (u.at_ + 60000000000 ≤ s.now ∨ size ≠ u.len) → Yields (.requestUpdate size) s (fun t =>
        answered t 0x8A ∧ t = { s with out := t.out })) ∧
      (u.window = false → s.now < u.at_ + 60000000000 → Yields (.requestUpdate size) s (fun t =>
        t.out = s.out ++ [.mctp 5 [1], .mctp 5 [0x8A]] ∧ t.fwu = none ∧ t.fld (rSys 0x58) 2 0 = 5)) ∧
      (u.window = false → off = u.data.length → Yields (.requestFirmwareData off data) s (fun t =>
        t.fwu = some { u with data := (u.data ++ data).take u.len } ∧ t = { s with fwu := t.fwu, regs := t.regs } ∧
        RegsOnly s t [rSys 0x58] ∧ t.fld (rSys 0x58) 2 0 = (if u.len ≤ u.data.length + data.length then 3 else 2))) ∧
      ((u.window = true ∨ off ≠ u.data.length) → Yields (.requestFirmwareData off data) s (fun t => t = s)) ∧
      Yields .cancelUpdate s (fun t => t.fwu = none ∧ (u.window = true → answered t 0 ∧ t.regs = s.regs) ∧
        (u.window = false → t.out = s.out ++ [.mctp 5 [1], .mctp 5 [0]] ∧ t.fld (rSys 0x58) 2 0 = 5)) ∧
      Yields .pldmWindowExpiry s (fun t =>
        (u.window = true → u.at_ + 60000000000 ≤ s.now → t = { s with fwu := none }) ∧
        ((u.window = false ∨ s.now < u.at_ + 60000000000) → t = s)))
  ) ∧ (
  ∀ (s : State) (n : Nat),
    (s.devState = 0 → ∀ i ∈ [Instr.getPdr n, .getSensorReading n, .getStateSensorReadings n, .pollForPlatformEventMessage],
      Yields i s (fun t => t = s)) ∧
    (s.devState ≠ 0 →
      Yields (.getPdr n) s (fun t => t = { s with out := s.out ++ [.mctp 2 (0 :: Config.pdr n)] }) ∧
      Yields (.getSensorReading n) s (fun t =>
        (sensorReg n = false → t = { s with out := s.out ++ [.mctp 2 [0x80]] }) ∧
        (sensorReg n = true → ∃ b : Bytes, b.length = 4 ∧ t = { s with out := s.out ++ [.mctp 2 (0 :: b)], free := s.free + 1 } ∧
          (rTel 0x500 ≤ n → n < rTel 0x700 → b = natLe 4 (s.regN n)))) ∧
      Yields (.getStateSensorReadings n) s (fun t => t = { s with out := t.out } ∧
        (n = 0 → t.out = s.out ++ [.mctp 2 (0 :: natLe 1 s.devState)]) ∧
        (n = 1 → t.out = s.out ++ [.mctp 2 (0 :: natLe 1 (s.fld (rTel 8) 5 0))]) ∧
        (2 ≤ n → t.out = s.out ++ [.mctp 2 [0x80]]))) ∧
    Yields (.doeDiscovery n) s (fun t => t = { s with out := t.out } ∧ ((s.linkUp = false ∨ s.devState = 0) → t = s) ∧
      (s.linkUp = true → s.devState ≠ 0 → n < 3 → t.out = s.out ++ [.doe [BitVec.ofNat 8 n, BitVec.ofNat 8 ((n + 1) % 3)]])) ∧
    Yields (.eidAssignment n) s (fun t =>
      ((n = 0 ∨ 255 ≤ n) → t = s) ∧ (n ≠ 0 → n < 255 → t.eid = n ∧ t = { s with eid := n, out := t.out })) ∧
    Yields .referenceClockLoss s (fun t => OnlyRegs s t [rSys 4] ∧ t.fld (rSys 4) 1 1 = 1 ∧ t.fld (rSys 4) 0 0 = 0)
  )

/-- R539 to R546: a record joins a stage that has room, taking its `SEQ` at the central queue; a full stage without a record of lower priority
discards it, counted on both paths; an isle's record leaves its staging for the central queue while its isle controller runs. An alarm sets
its bit, counts, and queues ahead of the rest or coalesces. The event ring and the sideband's poll deliver alarms first.
Where the rules leave a point open, the model's choice stands: log entries 42, 56, 60, 102. -/
def Obligations.EventLog : Prop :=
  ∀ (s : State) (rec_ : EvRec),
    ((rec_.cls = 0 ∨ 5 < rec_.cls ∨ 86 < rec_.source) → ∀ st, Yields (.eventRecordEnqueue st rec_) s (fun t => t = s)) ∧
    (1 ≤ rec_.cls → rec_.cls ≤ 5 →
      (∀ i, i < 80 → rec_.source = i →
        let l : LogQ := fget {} s.stag i
        (l.q.length < 4095 → Yields (.eventRecordEnqueue (.isle i) rec_) s (fun t =>
          (fget {} t.stag i : LogQ).q = l.q ++ [rec_] ∧ t = { s with stag := t.stag } ∧ (∀ j, j ≠ i → (fget {} t.stag j : LogQ) = fget {} s.stag j))) ∧
        (4095 ≤ l.q.length → rec_.cls ≤ 4 → (∀ x ∈ l.q, rec_.cls < x.cls → 5 ≤ x.cls) →
          Yields (.eventRecordEnqueue (.isle i) rec_) s (fun t =>
            t.regN (rTel (0x100 + 4 * i + rec_.cls - 1)) = Nat.min (s.regN (rTel (0x100 + 4 * i + rec_.cls - 1)) + 1) (2 ^ 32 - 1) ∧
            t.regN (rTel (0x300 + 4 * i + rec_.cls - 1)) = Nat.min (s.regN (rTel (0x300 + 4 * i + rec_.cls - 1)) + 1) (2 ^ 32 - 1) ∧
            (fget {} t.stag i : LogQ).q.filter (fun x => x.cls != 5) = l.q.filter (fun x => x.cls != 5))) ∧
        (∀ rest, l.q = rec_ :: rest → s.icUp i = true → s.central.q.length < 4095 → Yields (.eventRecordEnqueue .central rec_) s (fun t =>
          (fget {} t.stag i : LogQ).q = rest ∧ t.central.q = s.central.q ++ [{ rec_ with seq := s.seq }] ∧ t.seq = (s.seq + 1) % 2 ^ 32)) ∧
        (s.icUp i = false → Yields (.eventRecordEnqueue .central rec_) s (fun t => t = s))) ∧
      (80 ≤ rec_.source → rec_.source ≤ 86 → s.central.q.length < 4095 → Yields (.eventRecordEnqueue .central rec_) s (fun t =>
        t.central.q = s.central.q ++ [{ rec_ with seq := s.seq }] ∧ t.seq = (s.seq + 1) % 2 ^ 32)) ∧
      (rec_.source ≤ 86 → Yields (.eventRecordEnqueue .sideband rec_) s (fun t =>
        (rec_.cls ≤ s.fld (rTel 6) 2 0 ∨ rec_.cls = 5 → s.sideQ.q.length < 255 → t.sideQ.q = s.sideQ.q ++ [rec_] ∧ t = { s with sideQ := t.sideQ }) ∧
        (s.fld (rTel 6) 2 0 < rec_.cls → rec_.cls ≠ 5 → t = s)))) ∧
    (∀ bit, bit ≤ 5 → rec_.source ≤ 86 → Yields (.alarm bit rec_) s (fun t =>
      (t.reg (rTel 8)).getLsbD bit = true ∧ t.regN (rTel (0x10 + bit)) = Nat.min (s.regN (rTel (0x10 + bit)) + 1) (2 ^ 32 - 1) ∧
      t = { s with regs := t.regs, fresh := t.fresh, alarms := t.alarms, seq := t.seq } ∧
      (s.alarms.length < 1024 → t.alarms = s.alarms ++ [{ rec_ := { rec_ with cls := 0, time := s.now, seq := s.seq } }] ∧
        t.seq = (s.seq + 1) % 2 ^ 32) ∧
      (1024 ≤ s.alarms.length → t.alarms.length = s.alarms.length ∧ t.seq = s.seq))) ∧
    (s.evSpace = false → Yields .eventRingWrite s (fun t => t = s)) ∧
    (s.evSpace = true → 0 < s.fld (rTel 4) 15 0 →
      let idx := s.regN (rTel 5)
      let next := (idx + 1) % s.fld (rTel 4) 15 0
      let wrote (t : State) (r : EvRec) : Prop := t.regN (rTel 5) = next ∧ ∃ more : List Out, (more = [] ∨ ∃ v, more = [.msix 0 v]) ∧
        t.out = s.out ++ [.hostWrite 0 (s.reg64 (rTel 0) / 4096 * 4096 + 64 * idx) (evBytes r),
          .hostWrite 0 (s.reg64 (rTel 2) / 8 * 8 + 4) (natLe 4 next)] ++ more
      (∀ x, s.alarms.find? (·.host) = some x → Yields .eventRingWrite s (fun t => wrote t x.rec_ ∧ t.central = s.central)) ∧
      (∀ r rest, s.alarms.find? (·.host) = none → s.central.q = r :: rest → Yields .eventRingWrite s (fun t =>
        wrote t r ∧ t.central.q = rest ∧ t.alarms = s.alarms)) ∧
      (s.alarms.find? (·.host) = none → s.central.q = [] → Yields .eventRingWrite s (fun t => t = s))) ∧
    Yields .eventRingSignalTimer s (fun t =>
      let r := s.ring 0 2 0
      ((r.unsig = 0 ∨ s.now < r.oldest + 1000000) → t = s) ∧
      (r.unsig ≠ 0 → r.oldest + 1000000 ≤ s.now → (t.ring 0 2 0).unsig = 0 ∧
        (s.fld (rHost 0 (0x2003 + 4 * s.fld (rTel 4) 27 17)) 0 0 = 0 → t.out = s.out ++ [.msix 0 (s.fld (rTel 4) 27 17)]))) ∧
    (s.devState ≠ 0 → Yields .pollForPlatformEventMessage s (fun t =>
      (∀ x, s.alarms.find? (·.side) = some x → t.out = s.out ++ [.mctp 2 (0 :: evBytes x.rec_)] ∧ t.sideQ = s.sideQ) ∧
      (∀ r rest, s.alarms.find? (·.side) = none → s.sideQ.q = r :: rest →
        t.out = s.out ++ [.mctp 2 (0 :: evBytes r)] ∧ t.sideQ.q = rest ∧ t.alarms = s.alarms) ∧
      (s.alarms.find? (·.side) = none → s.sideQ.q = [] → t = { s with out := s.out ++ [.mctp 2 [0]] })))

/-! ## Requests -/

/-- R343, R345, R346, R350, R358, R382, R383: a `SUBMIT` at the head of the fetched records. A malformed one is an error; with no Free entry it stays
unconsumed; without a live version, a class or a prompt it is answered by an `END` and takes no entry; a failed read stops its ring; else the
lowest Free entry is Queued, and with `SPEC` a second one for the draft. A poll fetches the new records of a ring in order; a ring whose
read failed stops.
Where the rules leave a point open, the model's choice stands: log entries 11, 36, 40. -/
def Obligations.SubmitRecords : Prop :=
  (∀ (s : State) (fn q : Nat) (r : Bytes) (prompt : Option (List Nat)) (bias : Option Bytes), s.headSub fn r = some q → recN r 0 1 = 1 →
    let p := recN r 1 1
    let dp := recN r 61 1 % 8
    let spec := recN r 2 1 / 4 % 2 == 1
    let nd := recN r 3 1 % 16
    let len := recN r 4 4 % 2 ^ 19
    let total := len + recN r 24 4 + nd
    let ok := s.owns fn p = true ∧ recN r 60 1 % 16 < ringsOf fn ∧ recN r 58 1 % 16 ≤ 8 ∧ recN r 59 1 % 128 ≤ 64 ∧ len ≤ 2 ^ 18 ∧
      (spec = true → 1 ≤ nd ∧ nd ≤ 8)
    let serves (p : Nat) : Bool := (s.part p).loaded && (s.part p).liveValid && !s.isFollower p
    let consumed (t : State) : Prop := t.subq = s.subq.drop 1 ∧
      (0 < s.fld (sqReg fn q 4) 15 0 → t.fld (sqReg fn q 5) 15 0 = (s.fld (sqReg fn q 5) 15 0 + 1) % s.fld (sqReg fn q 4) 15 0)
    let refused (t : State) (st : Nat) : Prop := consumed t ∧ t.reqs = s.reqs ∧
      Posted s t fn (recN r 60 1 % 16) none false (s.complBytes 3 0 0 st 6 (recN r 16 8) 0 [])
    (¬ ok → Faults (.submit fn q r prompt bias) s .record) ∧
    (ok → s.freeFrom 0 = none → Yields (.submit fn q r prompt bias) s (fun t =>
      t = { s with subq := t.subq, regs := t.regs } ∧ t.fld (sqReg fn q 5) 17 17 = 1 ∧ t.fld (sqReg fn q 5) 15 0 = s.fld (sqReg fn q 5) 15 0)) ∧
    (∀ e, ok → spec = false → s.freeFrom 0 = some e →
      (serves p = false → Yields (.submit fn q r prompt bias) s (fun t => refused t 0x0D)) ∧
      (serves p = true → s.classFor p total = none → Yields (.submit fn q r prompt bias) s (fun t => refused t 0x0C)) ∧
      (∀ c, serves p = true → s.classFor p total = some c → len = 0 → Yields (.submit fn q r prompt bias) s (fun t => refused t 2)) ∧
      (∀ c, serves p = true → s.classFor p total = some c → 0 < len → (prompt = none ∨ bias = none) →
        Yields (.submit fn q r prompt bias) s (fun t => t.reqs = s.reqs ∧ t.fld (sqReg fn q 5) 16 16 = 1 ∧
          t.fld (sqReg fn q 5) 15 0 = s.fld (sqReg fn q 5) 15 0 ∧
          t.fld (rHost fn 5) 23 16 = Nat.min (s.fld (rHost fn 5) 23 16 + 1) 255 ∧ t.out = s.out)) ∧
      (∀ c toks b, serves p = true → s.classFor p total = some c → 0 < len → prompt = some toks → bias = some b →
        Yields (.submit fn q r prompt bias) s (fun t => consumed t ∧ ReqsOnly s t [e] ∧ (t.req e).state = 1 ∧ (t.req e).part = p ∧
          (t.req e).cls = c ∧ (t.req e).promptLen = len ∧ (t.req e).maxNew = recN r 24 4 ∧ (t.req e).user = recN r 16 8 ∧
          (t.req e).tArrive = s.now ∧ (t.req e).func = fn ∧ (t.req e).prompt = toks.map (· % 2 ^ 24) ∧
          Posted s t fn (recN r 60 1 % 16) (some e) false (s.complBytes 1 0 e 0 0 (recN r 16 8) 0 [])))) ∧
    (∀ e d c cd toks b, ok → spec = true → s.proxyOf dp = none → s.freeFrom 0 = some e → s.freeFrom (e + 1) = some d → serves p = true →
      serves dp = true → s.classFor p total = some c → s.classFor dp total = some cd → 0 < len → prompt = some toks → bias = some b →
      Yields (.submit fn q r prompt bias) s (fun t => consumed t ∧ ReqsOnly s t [e, d] ∧
        (t.req e).state = 1 ∧ (t.req e).spec = true ∧ (t.req e).link = d ∧ (t.req e).part = p ∧ (t.req e).cls = c ∧
        (t.req d).state = 1 ∧ (t.req d).draft = true ∧ (t.req d).link = e ∧ (t.req d).part = dp ∧ (t.req d).cls = cd ∧
        (t.req d).prompt = (t.req e).prompt ∧ (t.req d).samp = (t.req e).samp ∧ (t.req d).dctr = (t.req e).dctr))) ∧
  (∀ (s : State) (r : PollRead), (∀ x ∈ s.rings, x.2.dirty = false) →
    (s.polled r = false → Yields (.hostPoll [r]) s (fun t => t.subq = s.subq ∧ t.regs = s.regs ∧ t.rings = s.rings ∧ t.out = s.out)) ∧
    (s.polled r = true → r.ok = false → Yields (.hostPoll [r]) s (fun t => s.ringErr r.fn r.kind r.q = false ∧
      t.ringErr r.fn r.kind r.q = true ∧ t.fld (rHost r.fn 5) 23 16 = Nat.min (s.fld (rHost r.fn 5) 23 16 + 1) 255)) ∧
    (s.polled r = true → r.ok = true → s.fld (ringCtl r.fn r.kind r.q) 15 0 ≤ r.hostIdx → Faults (.hostPoll [r]) s .record) ∧
    (s.polled r = true → r.ok = true → r.kind = .sq → (s.ring r.fn 0 r.q).ready = true →
      let n := s.fld (ringCtl r.fn r.kind r.q) 15 0
      let new := (r.hostIdx + n - s.fld (sqReg r.fn r.q 5) 15 0) % n
      r.hostIdx < n → s.fld (sqReg r.fn r.q 5) 15 0 < n → (∀ y ∈ s.subq, ¬(y.1 = r.fn ∧ y.2.1 = r.q)) → r.recs.length = Nat.min 16 new →
      Yields (.hostPoll [r]) s (fun t => t.subq = s.subq ++ r.recs.map (fun b => (r.fn, r.q, b)) ∧ (t.ring r.fn 0 r.q).host = r.hostIdx ∧
        ((t.ring r.fn 0 r.q).dirty = true ↔ r.recs ≠ []) ∧ t.regs = s.regs ∧ t.reqs = s.reqs ∧ t.out = s.out))) ∧
  (∀ (s : State) (fn q : Nat) (x : Ring), q < 16 → s.rings = [(ringKey fn 0 q, x)] → x.dirty = true → Yields (.hostPoll []) s (fun t =>
    t.out = s.out ++ [.hostWrite fn (s.reg64 (sqReg fn q 2) / 8 * 8 + 4) (natLe 4 (s.fld (sqReg fn q 5) 15 0))] ∧
    (t.ring fn 0 q).dirty = false ∧ t = { s with out := t.out, rings := t.rings }))

/-- R342, R344, R359, R362 to R365, Table 12-4: the other records and the course of a park and of a resume, whose lines are read and
written as background claims of the cabinets. A record that finds no row of the table for its entry and
state, or names no entry, is consumed and answered by a `MISS`.
Where the rules leave a point open, the model's choice stands: log entry 40. -/
def Obligations.RequestRecords : Prop :=
  (∀ (s : State) (fn q : Nat) (r : Bytes), s.headSub fn r = some q → s.owns fn (recN r 1 1) = true →
    let late := decide (recN r 4 2 < 8192) && decide ((s.req (recN r 4 2)).state ≠ 0) && (s.req (recN r 4 2)).late
    let missed (t : State) : Prop := t.reqs = s.reqs ∧ t.subq = s.subq.drop 1 ∧
      Posted s t fn 0 none false (s.complBytes 6 0 (recN r 4 2) 0x0E (b2n late) (recN r 16 8) 0 [])
    (s.named r = none → (recN r 0 1 = 2 → Yields (.cancel fn r) s missed) ∧ (recN r 0 1 = 3 → Yields (.park fn r) s missed) ∧
      (recN r 0 1 = 4 → Yields (.resume fn r) s missed) ∧ (recN r 0 1 = 5 → Yields (.drop fn r) s missed)) ∧
    (∀ e, s.named r = some e →
      let x := s.req e
      let gone (t : State) (st : Nat) : Prop := t.subq = s.subq.drop 1 ∧ (x.silent = false →
        Posted s t x.func x.cring (some e) true (s.complBytes 3 0 e st (b2n x.late + 2) x.user 0 []) ∧
        (t.req e).state = (if (s.ring x.func 1 x.cring).held = [] ∧ s.cqSpace x.func x.cring = true then 0 else 5))
      (recN r 0 1 = 2 →
        ((x.state = 1 ∨ x.state = 4) → Yields (.cancel fn r) s (fun t => gone t 3 ∧
          (x.state = 4 → Out.hostWrite x.func x.parkAddr (natLe 4 2) ∈ t.out))) ∧
        ((x.state = 2 ∨ x.state = 3) → Yields (.cancel fn r) s (fun t => t.subq = s.subq.drop 1 ∧ (t.req e).state = 5 ∧ (t.req e).status = 3 ∧
          (t.req e).held = [] ∧ e ∈ (t.part x.part).relQ ∧ (∀ g ∈ (t.part x.part).groups, g.entry ≠ e) ∧
          (∀ c ∈ s.partCores (s.part x.part), ∃ l ∈ t.net, l.msg = .vc3 (.void c e)))) ∧
        (5 ≤ x.state → Yields (.cancel fn r) s missed)) ∧
      (recN r 0 1 = 3 →
        (x.state = 3 → x.spec = false → x.draft = false → x.parking = false → Yields (.park fn r) s (fun t => t.subq = s.subq.drop 1 ∧
          t.req e = { x with parking := true, parkAddr := recN r 24 8, ttl := recN r 32 4
                             copying := x.copying || !(s.part x.part).running e } ∧ ReqsOnly s t [e] ∧ t.out = s.out)) ∧
        ((x.state ≠ 3 ∨ x.spec = true ∨ x.draft = true ∨ x.parking = true) → Yields (.park fn r) s missed)) ∧
      (recN r 0 1 = 4 →
        (x.state = 4 → x.resuming = false → Yields (.resume fn r) s (fun t => t.subq = s.subq.drop 1 ∧ t.req e = { x with resuming := true } ∧
          ReqsOnly s t [e] ∧ t.out = s.out)) ∧
        ((x.state ≠ 4 ∨ x.resuming = true) → Yields (.resume fn r) s missed)) ∧
      (recN r 0 1 = 5 →
        (x.state = 4 → Yields (.drop fn r) s (fun t => gone t 0x0A ∧ Out.hostWrite x.func x.parkAddr (natLe 4 2) ∈ t.out)) ∧
        (x.state ≠ 4 → Yields (.drop fn r) s missed)))) ∧
  (∀ (s : State) (e : Nat) (area : Option Bytes),
    let x := s.req e
    ((x.parking = false ∨ x.state ≠ 3 ∨ s.schUp = false ∨ (s.part x.part).running e = true) → Yields (.parkCopyDone e) s (fun t => t = s)) ∧
    (x.parking = true → x.state = 3 → s.schUp = true → (s.part x.part).running e = false → x.copying = false →
      Yields (.parkCopyDone e) s (fun t => t = { s with reqs := t.reqs, cores := t.cores } ∧ ReqsOnly s t [e] ∧
        t.req e = { x with copying := true })) ∧
    (x.copying = true → s.copyWaits e = true → Yields (.parkCopyDone e) s (fun t => t = s) ∧ Yields (.resumePlaced e area) s (fun t =>
      x.state = 4 → t = s)) ∧
    (x.parking = true → x.state = 3 → s.schUp = true → (s.part x.part).running e = false → x.copying = true → s.copyWaits e = false →
      Yields (.parkCopyDone e) s (fun t => ReqsOnly s t [e] ∧ (t.req e).state = 4 ∧ (t.req e).copying = false ∧ (t.req e).parking = false ∧ (t.req e).held = [] ∧ (t.req e).placed = false ∧
      (t.req e).tExpire = (s.now + 1000000 * x.ttl) % 2 ^ 64 ∧ e ∈ (t.part x.part).relQ ∧ t.mem = s.mem ∧
      (∃ area : Bytes, (area.take 4 = natLe 4 1 ∧ (area.drop 8).take 8 = natLe 8 x.user ∧ (area.drop 16).take 4 = natLe 4 x.pos) ∧
        Out.hostWrite x.func x.parkAddr area ∈ t.out) ∧
      (x.silent = false → Posted s t x.func x.cring (some e) false (s.complBytes 4 0 e 0 (b2n x.late) x.user 0 [])))) ∧
    ((x.state ≠ 4 ∨ x.resuming = false ∨ x.held = [] ∨ s.schUp = false) → Yields (.resumePlaced e area) s (fun t => t = s)) ∧
    (x.state = 4 → x.resuming = true → x.held ≠ [] → s.schUp = true →
      (x.copying = false → area = none → Yields (.resumePlaced e area) s (fun t => t.req e = { x with held := [], placed := false } ∧
        ReqsOnly s t [e] ∧ t = { s with reqs := t.reqs })) ∧
      (x.copying = false → area ≠ none → Yields (.resumePlaced e area) s (fun t => t = { s with reqs := t.reqs, cores := t.cores, regs := t.regs } ∧
        ReqsOnly s t [e] ∧ t.req e = { x with copying := true })) ∧
      (x.copying = true → s.copyWaits e = false → Yields (.resumePlaced e area) s (fun t => ReqsOnly s t [e] ∧ (t.req e).state = 3 ∧
        (t.req e).resuming = false ∧ (t.req e).copying = false ∧
        (t.req e).held = x.held ∧ (t.req e).pos = x.pos ∧ (t.req e).lastTok = x.lastTok ∧
        Out.hostWrite x.func x.parkAddr (natLe 4 3) ∈ t.out ∧
        (x.silent = false → Posted s t x.func x.cring (some e) false (s.complBytes 5 0 e 0 (b2n x.late) x.user 0 []))))) ∧
    ((x.state ≠ 4 ∨ x.resuming = true ∨ s.now < x.tExpire ∨ s.schUp = false) → Yields (.parkExpiry e) s (fun t => t = s)) ∧
    (x.state = 4 → x.resuming = false → x.tExpire ≤ s.now → s.schUp = true → Yields (.parkExpiry e) s (fun t =>
      Out.hostWrite x.func x.parkAddr (natLe 4 2) ∈ t.out ∧ ReqsOnly s t [e] ∧ (x.silent = false →
        Posted s t x.func x.cring (some e) true (s.complBytes 3 0 e 9 (b2n x.late + 2) x.user 0 []) ∧
        (t.req e).state = (if (s.ring x.func 1 x.cring).held = [] ∧ s.cqSpace x.func x.cring = true then 0 else 5)))))

/-! ## Beat assembly and the words of a beat -/

/-- R337, R339, R340, R347, R349, R368, R409: a sheet is assembled once for the next beat of a partition that runs: its views are the lists of the last
stages under one variant, and the list of the new beat joins the history; behind a barrier, or with a weight operation that awaits its hold, no
group enters; while the scheduler restarts a Decode slot goes on under the current variant. A follower hands over the forwarded entries once its
counter allows. The stall root sends every core the lines of its stage's view over VC3 (R203).
Where the rules leave a point open, the model's choice stands: log entries 41, 51. -/
def Obligations.SheetAssembly : Prop :=
  ∀ (s : State) (part : Nat), part < 8 →
    let q := s.part part
    let st := Nat.max q.stages 1
    let nb := q.nextBeat
    let sent (t : State) (views : List (List Bytes)) : Prop :=
      (t.part part).sheetLeft = ((s.partCores q).map (fun c => (views.getD (s.coreRec c).stage []).length)).sum ∧
      ∀ c ∈ s.partCores q, ∀ lane, lane < q.lanes → (s.coreRec c).stage < st → ∃ l ∈ t.net,
        l.vc = 3 ∧ l.msg = .vc3 (.sheetLine c lane ((views.getD (s.coreRec c).stage []).getD lane []))
    ((q.loaded = false ∨ q.liveValid = false ∨ q.started = false ∨ (q.held = true ∧ q.wop = none) ∨ q.halted = true ∨ q.sheet.isSome = true) →
      Yields (.sheetAssembly part) s (fun t => t = s)) ∧
    (q.loaded = true → q.liveValid = true → q.started = true → (q.held = false ∨ q.wop.isSome = true) → q.halted = false → q.sheet = none →
      (s.isFollower part = false → Yields (.sheetAssembly part) s (fun t => ∃ v, ∃ views : List (List Bytes),
        (t.part part).sheet = some views ∧ views = viewsOf st q.lanes v (t.part part).history ∧ views.length = st ∧
        (t.part part).history.length = Nat.min (q.history.length + 1) st ∧ ((t.part part).history.headD []).length = q.lanes ∧
        (∀ view ∈ views, view.length = q.lanes ∧ ∀ x ∈ view, x.take 1 = natLe 1 v) ∧ sent t views ∧ t.mem = s.mem ∧
        t.arrs = s.arrs)) ∧
      (s.isFollower part = false → q.held = false → (q.barrier = true ∨ q.wop.isSome = true) → (s.schUp = false ∨ q.words = []) → Yields (.sheetAssembly part) s (fun t =>
        t.reqs = s.reqs ∧ (∀ g ∈ (t.part part).groups, g ∈ q.groups))) ∧
      (∀ e pos kind n, s.isFollower part = false → q.lanes = 1 → s.schUp = false → (q.held = true ∨ (q.barrier = false ∧ q.wop = none)) → q.unloading = false →
        s.holder part (nb % st) 0 = some e → s.decodeGroup part 0 e = some (pos, kind, n) →
        s.fits part (s.fld (rSch (0x150 + part)) 2 0) 0 kind n (s.req e).cls = true → Yields (.sheetAssembly part) s (fun t =>
          (t.req e).pos = pos + n ∧ ReqsOnly s t [e] ∧
          ∃ g ∈ (t.part part).groups, g.entry = e ∧ g.beat = nb ∧ g.lane = 0 ∧ g.pos0 = pos ∧ g.kind = kind ∧ g.n = n)) ∧
      (s.isFollower part = true →
        let v := s.reg64 (rCwy (0x40 + 2 * part))
        let ents := fget [] q.fwd nb
        let due := counterGe (fget 0 s.sync (v / 2 ^ 16 % 65536)) (v / 2 ^ 32 % 16 * nb)
        ((ents = [] ∨ due = false) → Yields (.sheetAssembly part) s (fun t => t = s)) ∧
        (ents ≠ [] → due = true → Yields (.sheetAssembly part) s (fun t => PartsOnly s t [part] ∧
          t = { s with parts := t.parts, net := t.net, netId := t.netId } ∧
          sent t (viewsOf st q.lanes (entVariant (ents.headD emptyEnt)) (t.part part).history) ∧
          (t.part part).sheet = some (viewsOf st q.lanes (entVariant (ents.headD emptyEnt)) (t.part part).history) ∧
          (t.part part).history.headD [] = ents.map (withVariant (entVariant (ents.headD emptyEnt)))))))

/-- R342, R347 step 1, R351, R356, R359, R360, R384, R385, R366: lane state words, voids, releases, deadlines, completion rings and sync counters.
Where the rules leave a point open, the model's choice stands: log entries 36, 39. -/
def Obligations.WordsReleasesAndRings : Prop :=
  (∀ (s : State) (part lane : Nat) (w : Bytes) (ws : List (Nat × Bytes)), part < 8 → (s.part part).words = (lane, w) :: ws →
    let e := leNat ((w.drop 8).take 2) % 8192
    let x := s.req e
    let q := s.part part
    let oldest := q.groups.find? (fun g => g.entry == e && g.lane == lane && decide (g.beat + Nat.max q.stages 1 ≤ q.beat + 1))
    (s.schUp = false → Yields (.laneStateWordReceived part lane w) s (fun t => t = s)) ∧
    (∀ l' w', (l', w') ≠ (lane, w) → Yields (.laneStateWordReceived part l' w') s (fun t => t = s)) ∧
    (s.schUp = true → (x.part ≠ part ∨ (x.state ≠ 2 ∧ x.state ≠ 3) ∨ wordByte w 5 / 2 % 2 = 1) →
      Yields (.laneStateWordReceived part lane w) s (fun t => t = (s.setPart part { q with words := ws }).parkCopy e ∧
        t.part part = { q with words := ws } ∧ PartsOnly s t [part] ∧
        (x.parking = false → OnlyPart s t part) ∧
        (x.parking = true → x.state = 3 → (s.part x.part).running e = false → (t.req e).copying = true ∧ ReqsOnly s t [e]))) ∧
    (∀ g, s.schUp = true → x.part = part → (x.state = 2 ∨ x.state = 3) → wordByte w 5 / 2 % 2 = 0 → oldest = some g →
      (wordByte w 5 % 2 = 1 → Yields (.laneStateWordReceived part lane w) s (fun t =>
        (t.req e).state = 7 ∧ (t.req e).status = 6 ∧ e ∈ (t.part part).relQ ∧ (t.req e).generated = x.generated)) ∧
      (wordByte w 5 % 2 = 0 → wordByte w 5 / 8 % 2 = 1 → Yields (.laneStateWordReceived part lane w) s (fun t =>
        (t.req e).state = 7 ∧ (t.req e).status = 8 ∧ e ∈ (t.part part).relQ)) ∧
      (wordByte w 5 = 0 → g.kind = 2 → wordByte w 4 = 1 → x.state = 3 → x.draft = false → x.late = false → x.silent = false →
        x.stops.contains (wordTok w 0) = false → x.generated + 2 ≤ x.maxNew → Yields (.laneStateWordReceived part lane w) s (fun t =>
          (t.part part).words = ws ∧ (t.req e).state = 3 ∧ (t.req e).pos = g.pos0 + 1 ∧ (t.req e).lastTok = wordTok w 0 ∧
          (t.req e).generated = x.generated + 1 ∧ ReqsOnly s t [e] ∧
          Posted s t x.func x.cring (some e) false (s.complBytes 2 1 e 0 0 x.user (g.pos0 + 1) [wordTok w 0])))) ∧
    (s.schUp = true → x.part = part → (x.state = 2 ∨ x.state = 3) → wordByte w 5 / 2 % 2 = 0 → oldest = none → wordByte w 5 / 16 % 2 = 1 →
      Yields (.laneStateWordReceived part lane w) s (fun t => (t.req e).state = 7 ∧ (t.req e).status = 7 ∧ e ∈ (t.part part).relQ))) ∧
  (∀ (s : State) (c : CoreId) (e : Nat),
    ((s.retained c = true ∨ ∀ l ∈ s.net, l.msg = .vc3 (.void c e) → l.there s.cyc = false) → Yields (.voidMessage c e) s (fun t => t = s)) ∧
    (∀ l ∈ s.net, l.msg = .vc3 (.void c e) → l.there s.cyc = true → s.retained c = false → Yields (.voidMessage c e) s (fun t =>
      t = { s with net := t.net, cores := t.cores } ∧ CoresOnly s t [c] ∧ (∀ x ∈ t.net, x ∈ s.net) ∧ t.net.length < s.net.length ∧
      (∀ lane, lane < 32 → names (s.sheetEnt c lane) e = true →
        { src := .vc3, space := spShelf, off := wordOff lane, act := .void e, at_ := s.cyc } ∈ (t.core c).uq) ∧
      (∀ lane, lane < 32 → names (s.rdLine c spShelf (nextSheetOff lane)) e = true → lane ∈ (t.core c).voidNext)))) ∧
  (∀ (s : State) (e : Nat),
    let x := s.req e
    let q := s.part x.part
    ((q.relOut.find? (fun y => y.1 == e) = none ∨ s.schUp = false ∨ q.begun = false) → Yields (.releaseComplete e) s (fun t => t = s)) ∧
    (∀ y, q.relOut.find? (fun y => y.1 == e) = some y → s.schUp = true → q.begun = true → y.2 + Nat.max q.stages 1 ≤ q.beat →
      Yields (.releaseComplete e) s (fun t => e ∉ (t.part x.part).relQ ∧ ReqsOnly s t [e] ∧
        (∀ z ∈ (t.part x.part).relOut, z.1 ≠ e) ∧ (x.state < 5 → t.req e = x) ∧
        (5 ≤ x.state → x.silent = false →
          Posted s t x.func x.cring (some e) true (s.complBytes 3 0 e x.status (b2n x.late + 2) x.user 0 []) ∧
          (t.req e).state = (if (s.ring x.func 1 x.cring).held = [] ∧ s.cqSpace x.func x.cring = true then 0 else x.state))))) ∧
  (∀ (s : State) (e : Nat), (s.schUp = false → Yields .deadlineCheck s (fun t => t = s)) ∧
    (s.schUp = true → Yields .deadlineCheck s (fun t => ∀ x, x = s.req e → x.draft = false →
      ((x.dlv = false ∨ s.now < x.deadline) → t.req e = x) ∧
      (x.dlv = true → x.deadline ≤ s.now → (x.state = 2 ∨ x.state = 3) →
        (x.hard = true → (t.req e).state = 5 ∧ (t.req e).status = 4 ∧ (t.req e).held = []) ∧
        (x.hard = false → (s.part x.part).running e = true → t.req e = { x with late := true }) ∧
        (x.hard = false → (s.part x.part).running e = false → (t.req e).state = 6 ∧ (t.req e).status = 5 ∧ (t.req e).late = true))))) ∧
  (∀ (s : State) (fn q : Nat), fn ≤ 8 → q < ringsOf fn →
    let r := s.ring fn 1 q
    (r.held = [] → Yields (.completionRecordWrite fn q) s (fun t => OnlyRegs s t [cqReg fn q 6] ∧ t.fld (cqReg fn q 6) 16 16 = 0)) ∧
    (r.held ≠ [] → s.cqSpace fn q = false → Yields (.completionRecordWrite fn q) s (fun t => t = s)) ∧
    (∀ e bs, r.held = [(some e, true, bs)] → s.cqSpace fn q = true → 0 < s.fld (cqReg fn q 4) 15 0 →
      Yields (.completionRecordWrite fn q) s (fun t => (t.ring fn 1 q).held = [] ∧ t.fld (cqReg fn q 6) 16 16 = 0 ∧
        t.fld (cqReg fn q 6) 15 0 = (s.fld (cqReg fn q 6) 15 0 + 1) % s.fld (cqReg fn q 4) 15 0 ∧ (t.req e).state = 0 ∧
        Out.hostWrite fn (s.reg64 (cqReg fn q 0) / 4096 * 4096 + 64 * s.fld (cqReg fn q 6) 15 0) bs ∈ t.out)) ∧
    Yields (.msixModerationTimer fn q) s (fun t =>
      ((r.unsig = 0 ∨ s.now < r.oldest + 1000 * s.fld (cqReg fn q 5) 23 8) → t = s) ∧
      (r.unsig ≠ 0 → r.oldest + 1000 * s.fld (cqReg fn q 5) 23 8 ≤ s.now → (t.ring fn 1 q).unsig = 0 ∧
        (s.fld (rHost fn (0x2003 + 4 * s.fld (cqReg fn q 4) 27 17)) 0 0 = 0 → t.out = s.out ++ [.msix fn (s.fld (cqReg fn q 4) 27 17)]) ∧
        (s.fld (rHost fn (0x2003 + 4 * s.fld (cqReg fn q 4) 27 17)) 0 0 = 1 → t.out = s.out ∧
          (t.reg (rHost fn (0x1C00 + s.fld (cqReg fn q 4) 27 17 / 32))).getLsbD (s.fld (cqReg fn q 4) 27 17 % 32) = true)))) ∧
  (∀ (s : State) (rq : Requester) (ctr add : Nat) (v : Word),
    ((s.schUp = false ∨ ∀ l ∈ s.net, l.msg = .vc3 (.sync ctr add) → l.there s.cyc = false) → Yields (.syncCounterAdd ctr add) s (fun t => t = s)) ∧
    (∀ l ∈ s.net, l.msg = .vc3 (.sync ctr add) → l.there s.cyc = true → s.schUp = true → Yields (.syncCounterAdd ctr add) s (fun t =>
      t = { s with sync := t.sync, net := t.net } ∧ (∀ x ∈ t.net, x ∈ s.net) ∧ t.net.length < s.net.length ∧
      fget 0 t.sync (ctr % 65536) = (fget 0 s.sync (ctr % 65536) + add) % 2 ^ 32 ∧
      (∀ k, k ≠ ctr % 65536 → fget 0 t.sync k = fget 0 s.sync k))) ∧
    (s.blocksOpen = true → rq = .pf → Yields (.syncCounterWrite rq ctr v) s (fun t => t = { s with sync := t.sync } ∧
      fget 0 t.sync (ctr % 65536) = v.toNat ∧ (∀ k, k ≠ ctr % 65536 → fget 0 t.sync k = fget 0 s.sync k))) ∧
    (∀ n, s.blocksOpen = true → rq = .vf n → 1 ≤ n → n ≤ 8 → Yields (.syncCounterWrite rq ctr v) s (fun t =>
      let base := s.fld (rHost 0 (0x401 + 4 * (n - 1))) 15 0
      let count := s.fld (rHost 0 (0x402 + 4 * (n - 1))) 16 0
      (base ≤ ctr → ctr < base + count → fget 0 t.sync (ctr % 65536) = v.toNat) ∧ ((ctr < base ∨ base + count ≤ ctr) → t = s))) ∧
    (s.blocksOpen = false → Yields (.syncCounterWrite rq ctr v) s (fun t => t = s)))

/-! ## The host attachment and registers -/

/-- R371, R377 to R379, R381, R383, R388, R390, R391, R416, R535, Table 13-5: ring controls and stopped rings, the cabinet and debug windows, the
driver's version, function level resets and power states.
Where the rules leave a point open, the model's choice stands: log entries 64, 66, 67, 69, 70. -/
def Obligations.HostAttachment : Prop :=
  (∀ (s : State) (fn q : Nat) (kind : RingKind) (v : Word),
    let c := ringCtl fn kind q
    let open_ := (kind = .ev → fn = 0 ∧ q = 0 ∧ s.devState ≠ 0 ∧ s.devState ≠ 10) ∧
      (kind ≠ .ev → fn ≤ 8 ∧ q < ringsOf fn ∧ s.blocksOpen = true ∧ (fn = 0 ∨ s.vfDark (.vf fn) = false))
    ((8 < fn ∨ s.fld c 16 16 = 0 ∨ s.ringErr fn kind q = true) → Yields (.dmaReadFailure fn kind q) s (fun t => t = s)) ∧
    (fn ≤ 8 → s.fld c 16 16 = 1 → s.ringErr fn kind q = false → Yields (.dmaReadFailure fn kind q) s (fun t => t.ringErr fn kind q = true ∧
      t.fld (rHost fn 5) 23 16 = Nat.min (s.fld (rHost fn 5) 23 16 + 1) 255 ∧ t.reqs = s.reqs ∧ t.out = s.out ∧
      (kind = .sq → ∀ y ∈ t.subq, ¬(y.1 = fn ∧ y.2.1 = q)))) ∧
    (¬ open_ → Yields (.ringControlWrite fn kind q v) s (fun t => t = s)) ∧
    (open_ → Yields (.ringControlWrite fn kind q v) s (fun t => t = { s with regs := t.regs, rings := t.rings } ∧
      RegsOnly s t [c, sqReg fn q 5, cqReg fn q 6] ∧
      (s.fld c 16 16 = 1 → t.fld c 15 0 = s.fld c 15 0 ∧ t.fld c 16 16 = bits v.toNat 16 16 ∧ t.rings = s.rings) ∧
      (s.fld c 16 16 = 0 → t.fld c 15 0 = bits v.toNat 15 0 ∧
        ((bits v.toNat 16 16 = 1 ∧ 2 ≤ bits v.toNat 15 0 ∧ (fn = 0 ∨ s.fld (rHost fn 1) 1 0 = 1)) →
          t.fld c 16 16 = 1 ∧ t.ringErr fn kind q = false ∧ (t.ring fn (ringCode kind) q).ready = false) ∧
        (¬(bits v.toNat 16 16 = 1 ∧ 2 ≤ bits v.toNat 15 0 ∧ (fn = 0 ∨ s.fld (rHost fn 1) 1 0 = 1)) → t.fld c 16 16 = 0))))) ∧
  (∀ (s : State) (fn off len : Nat) (wr : Option Bytes),
    let n := match wr with
      | some bs => bs.length
      | none => len
    let rq : Requester := if fn = 0 then .pf else .vf fn
    let ones (t : State) : Prop := t.out = if wr.isSome then s.out else s.out ++ [.answer rq (List.replicate n 0xFF)]
    let refused (t : State) : Prop := ones t ∧ OnlyRegs { s with out := t.out } t [rHost fn 5] ∧
      t.fld (rHost fn 5) 30 24 = Nat.min (s.fld (rHost fn 5) 30 24 + 1) 127
    ((s.linkUp = false ∨ s.devState = 0) → Yields (.bar2Access fn off len wr) s (fun t => t = s)) ∧
    (s.linkUp = true → s.devState ≠ 0 → fn ≠ 0 → s.devState ≠ 7 → s.devState ≠ 8 →
      Yields (.bar2Access fn off len wr) s (fun t => ones t ∧ t = { s with out := t.out })) ∧
    (s.linkUp = true → s.devState ≠ 0 → (fn = 0 ∨ s.devState = 7 ∨ s.devState = 8) →
      ((s.b2Addr fn off = none ∨ s.ideOk fn = false) → Yields (.bar2Access fn off len wr) s refused) ∧
      (∀ c o, s.b2Addr fn off = some (c, o) → s.ideOk fn = true →
        ((2 ^ 36 ≤ off ∨ s.coreOk c = false ∨ 0x5800000 < o + n ∨ n = 0) → Faults (.bar2Access fn off len wr) s .address) ∧
        (off < 2 ^ 36 → s.coreOk c = true → o + n ≤ 0x5800000 → 0 < n →
          (s.isleState (s.physIsle (cIsle c)) ≠ 2 → Yields (.bar2Access fn off len wr) s refused) ∧
          (s.isleState (s.physIsle (cIsle c)) = 2 → wr.isSome = true → s.protected_ c o n = true →
            Faults (.bar2Access fn off len wr) s .contract) ∧
          (s.isleState (s.physIsle (cIsle c)) = 2 → (wr = none ∨ s.protected_ c o n = false) →
            Yields (.bar2Access fn off len wr) s (fun t => OnlyCore s t c ∧
              (t.core c).claims.length = (s.core c).claims.length + ((o + n - 1) / 64 - o / 64 + 1) ∧
              ∀ l, o / 64 ≤ l → l ≤ (o + n - 1) / 64 →
                let lo := Nat.max o (64 * l)
                let hi := Nat.min (o + n) (64 * l + 64)
                { prio := 5, off := lo, kind := match wr with
                  | some bs => ClaimKind.write ((bs.drop (lo - o)).take (hi - lo))
                  | none => .read (hi - lo) rq } ∈ (t.core c).claims)))))) ∧
  (∀ (s : State) (wr : Option Word),
    let a := s.reg64 (rDbg 0x10)
    let c := waCore a
    ((s.hears .pf = false ∨ s.blocksOpen = false) → Yields (.dbgWindowAccess wr) s (fun t => t = s)) ∧
    (s.hears .pf = true → s.blocksOpen = true →
      ((s.coreOk c = false ∨ (5 ≤ waSpace a ∧ waSpace a ≠ 8) ∨ (waSpace a < 5 ∧ spaceSize (waSpace a) < waOff a + 4)) →
        Faults (.dbgWindowAccess wr) s .address) ∧
      (s.coreOk c = true → waSpace a = 8 → s.dbgReach c 8 = false) ∧
      (s.coreOk c = true → (waSpace a = 8 ∨ (waSpace a < 5 ∧ waOff a + 4 ≤ spaceSize (waSpace a))) →
        (s.dbgReach c (waSpace a) = true → (waSpace a = spShelf → s.retained c = false) → Yields (.dbgWindowAccess wr) s (fun t => OnlyCore s t c ∧
          (t.core c).uq = (s.core c).uq ++ [{ src := .host, space := waSpace a, off := waOff a, act := match wr with
                                                | some v => UAct.write (natLe 4 v.toNat)
                                                | none => .read 4 .pf
                                              at_ := s.cyc }])) ∧
        (s.dbgReach c (waSpace a) = true → waSpace a = spShelf → s.retained c = true → Yields (.dbgWindowAccess wr) s (fun t =>
          t = { s with regs := t.regs, out := t.out } ∧ RegsOnly s t [s.sreg c 0x892] ∧
          t.fld (s.sreg c 0x892) 31 24 = Nat.min (s.fld (s.sreg c 0x892) 31 24 + 1) 255 ∧
          t.out = (if wr.isSome then s.out else s.out ++ [.answer .pf (List.replicate 4 0xFF)]))) ∧
        (s.dbgReach c (waSpace a) = false → Yields (.dbgWindowAccess wr) s (fun t => t = { s with regs := t.regs, fresh := t.fresh, out := t.out } ∧
          t.out = (if wr.isSome then s.out else s.out ++ [.answer .pf (List.replicate 4 0xFF)]) ∧
          (∀ p, s.partOf c = some p → (t.reg (rDbg p)).getLsbD 2 = true ∧ RegsOnly s t [rDbg p]) ∧
          (s.partOf c = none → t.regs = s.regs)))))) ∧
  (∀ (s : State) (fn : Nat) (v : Word),
    let ok := s.regN (rHost 0 2) ≤ v.toNat ∧ v.toNat ≤ s.regN (rHost 0 3)
    ((s.devState ≠ 6 ∨ s.fld (rHost 0 1) 1 0 = 2) → Yields (.hostDrvVerWrite 0 v) s (fun t => t = s)) ∧
    (s.devState = 6 → s.fld (rHost 0 1) 1 0 ≠ 2 → Yields (.hostDrvVerWrite 0 v) s (fun t => t.reg (rHost 0 0) = v ∧ t = { s with regs := t.regs } ∧
      (ok → t.devState = 7 ∧ t.regN (rHost 0 1) = 1) ∧ (¬ ok → t.devState = 6 ∧ t.regN (rHost 0 1) = 2))) ∧
    (1 ≤ fn → fn ≤ 8 → (s.devState = 7 ∨ s.devState = 8) → Yields (.hostDrvVerWrite fn v) s (fun t => OnlyRegs s t [rHost fn 0, rHost fn 1] ∧
      t.reg (rHost fn 0) = v ∧ (ok → t.regN (rHost fn 1) = 1) ∧ (¬ ok → t.regN (rHost fn 1) = 2)))) ∧
  (∀ (s : State) (n : Nat),
    let ended (t : State) (fn : Nat) : Prop := (∀ e, (s.req e).func = fn → (t.req e).state = 0 ∨ 5 ≤ (t.req e).state) ∧
      (∀ k q, k < 3 → q < 16 → t.ring fn k q = {})
    let kept (t : State) : Prop := t.mem = s.mem ∧ t.arrs = s.arrs ∧ t.sync = s.sync ∧ ∀ k, k < 8 → t.vfPart (k + 1) = s.vfPart (k + 1)
    let pf (t : State) : Prop := kept t ∧ (∀ fn, fn ≤ 8 → ended t fn) ∧ (t.txSlot 0).owner = none ∧
      (∀ r, flrReg 0 r = true → t.reg r = regReset r) ∧
      ((∀ e, (s.req e).func ≤ 8) → ∀ fn r, fn ≤ 8 → flrReg fn r = true → t.reg r = regReset r) ∧
      t.devState = (if s.devState = 7 ∨ s.devState = 8 then 6 else s.devState) ∧ t.reg (rTel 4) = regReset (rTel 4) ∧
      (∀ p, p < 8 → (t.part p).staging = none)
    ((n = 0 ∨ 8 < n) → Yields (.vfFlr n) s (fun t => t = s)) ∧
    (1 ≤ n → n ≤ 8 → Yields (.vfFlr n) s (fun t => kept t ∧ ended t n ∧ t.devState = s.devState ∧
      (∀ r, flrReg n r = true → t.reg r = regReset r) ∧
      ((s.txSlot 0).owner = some (.vf n) → (t.txSlot 0).owner = none ∧ (t.txSlot 0).status = 7) ∧
      (∀ p, s.vfPart n = some p → (t.part p).staging = none))) ∧
    Yields .pfFlr s (fun t => pf t ∧ t.linkUp = s.linkUp) ∧ Yields .linkDown s (fun t => pf t ∧ t.linkUp = false) ∧
    (n ≤ 8 → Yields (.d3hotEntry n) s (fun t => t.inD3 n = true ∧ t = { s with d3 := t.d3 } ∧ (∀ k, k ≠ n → t.inD3 k = s.inD3 k))) ∧
    Yields (.d0Return n) s (fun t => t.inD3 n = false ∧ t = { s with d3 := t.d3 } ∧ (∀ k, k ≠ n → t.inD3 k = s.inD3 k)) ∧
    (s.devState = 0 → Yields .linkTrained s (fun t => t = s)) ∧
    (s.devState = 1 → s.cyc < s.startCyc + 60000000 → Yields .linkTrained s (fun t => t = s)) ∧
    (s.devState ≠ 0 → (s.devState = 1 → s.startCyc + 60000000 ≤ s.cyc) → Yields .linkTrained s (fun t =>
      t = { s with linkUp := true, regs := t.regs } ∧ RegsOnly s t [rSys 4] ∧ t.fld (rSys 4) 2 2 = 1)))

/-- R6 to R8, R12, R13, R75, R371, R374, Tables 0-2, 2-5: a read of a low half captures the high half for its requester, who then reads that; a low half
written is held and applied with its high half; an address inside a word is an error; a write sets RW bits, clears the W1C bits it names, goes to
the transaction for an RWT register, and changes nothing of a read-only register or outside what the requester may write; a bit that an event of the
same cycle has set stays set (Table 0-2); Held, Failed and Shutdown take few writes (R12, R13).
Where the rules leave a point open, the model's choice stands: log entries 57, 58, 64. -/
def Obligations.RegisterAccesses : Prop :=
  ∀ (s : State) (rq : Requester) (addr : Nat) (v : Word),
    (addr % 4 ≠ 0 → Faults (.reg64LowRead rq addr) s .address ∧ Faults (.reg64LowWrite rq addr v) s .address ∧
      Faults (.reg64HighWrite rq addr v) s .address ∧ Faults (.registerWrite rq addr v) s .address) ∧
    (addr % 4 = 0 → s.hears rq = false → Yields (.reg64LowRead rq addr) s (fun t => t = s)) ∧
    (∀ r, addr % 4 = 0 → s.hears rq = true → s.target rq addr = .reg r → isLow r = true → s.shows (.reg r) = true → s.vfDark rq = false →
      Yields (.reg64LowRead rq addr) s (fun t => t = { s with out := t.out, holdHi := t.holdHi } ∧
        t.out = s.out ++ [.answer rq (natLe 4 (s.readWord rq addr).toNat)] ∧
        (∀ a, s.target rq a = .reg (r + 1) → s.shows (.reg (r + 1)) = true → t.readWord rq a = s.view rq (r + 1)) ∧
        (∀ k, k ≠ ownKey rq (r + 1) → fget 0 t.holdHi k = fget 0 s.holdHi k))) ∧
    (∀ r, addr % 4 = 0 → s.target rq addr = .reg r → isLow r = true → Yields (.reg64LowWrite rq addr v) s (fun t =>
      (s.takes rq r = false → t = s) ∧
      (s.takes rq r = true → t = { s with heldLo := t.heldLo } ∧ fget 0 t.heldLo (ownKey rq r) = v.toNat + 1))) ∧
    (∀ q (lo : Word), q < 16 → s.takes .pf (sqReg 0 q 0) = true → s.fld (sqReg 0 q 4) 16 16 = 0 →
      fget 0 s.heldLo (ownKey .pf (sqReg 0 q 0)) = lo.toNat + 1 →
      Yields (.reg64HighWrite .pf (4 * (sqReg 0 q 0 + 1)) v) s (fun t => t = { s with regs := t.regs, heldLo := t.heldLo } ∧
        t.reg (sqReg 0 q 0) = (s.reg (sqReg 0 q 0) &&& 0xFFF#32) ||| (lo &&& 0xFFFFF000#32) ∧ t.reg (sqReg 0 q 0 + 1) = v ∧
        RegsOnly s t [sqReg 0 q 0, sqReg 0 q 0 + 1] ∧ fget 0 t.heldLo (ownKey .pf (sqReg 0 q 0)) = 0)) ∧
    (∀ isle, (80 ≤ isle → Faults (.cimColStatRead rq isle) s .address) ∧
      (isle < 80 → s.hears rq = false → Yields (.cimColStatRead rq isle) s (fun t => t = s)) ∧
      (isle < 80 → s.hears .pf = true → s.isMapped = true → s.devState ≠ 10 → Yields (.cimColStatRead .pf isle) s (fun t =>
        let sel := s.selN .pf (rIsle isle 0x800)
        t = { s with out := t.out, sel := t.sel } ∧
        t.out = s.out ++ [.answer .pf (natLe 4 (s.readWord .pf (4 * rIsle isle 0x805)).toNat)] ∧
        (bits sel 31 31 = 0 → t.sel = s.sel) ∧
        (bits sel 31 31 = 1 → bits (t.selN .pf (rIsle isle 0x800)) 24 14 = (bits sel 24 14 + 1) % 1072 ∧
          bits (t.selN .pf (rIsle isle 0x800)) 13 0 = bits sel 13 0)))) ∧
    (∀ r, addr % 4 = 0 → s.target rq addr = .reg r → isLow r = false → (r = 0 ∨ isLow (r - 1) = false) →
      (s.takes rq r = false → Yields (.registerWrite rq addr v) s (fun t => t = s)) ∧
      (s.takes rq r = true →
        ((regAcc r).rwt ≠ 0 → reservedValue r v = false → s.openSlot rq = none → Yields (.registerWrite rq addr v) s (fun t =>
          OnlyRegs s t [rCfg 5] ∧ t.regN (rCfg 5) = Nat.min (s.regN (rCfg 5) + 1) (2 ^ 32 - 1))) ∧
        (r = rHost 0 6 → Yields (.registerWrite rq addr v) s (fun t => OnlyRegs s t [r] ∧
          t.reg r = (s.reg r &&& 0xFFFFFF00#32) ||| (v &&& 0xFF#32))) ∧
        (r = rSys 0x54 → Yields (.registerWrite rq addr v) s (fun t => OnlyRegs s t [r] ∧ t.reg r =
          (s.reg r &&& ~~~(v &&& 0x1F#32)) ||| (s.reg r &&& BitVec.ofNat 32 (0x1F &&& fget 0 s.fresh r)))) ∧
        (r = rSys 0 → Yields (.registerWrite rq addr v) s (fun t => OnlyRegs s t [])) ∧
        ((s.devState = 6 ∨ s.devState = 9) → inSys r = true ∨ inSec r = true ∨ inTel r = true ∨ (s.devState = 6 ∧ r = rHost 0 0)) ∧
        (s.devState = 10 → r = rSys 2) ∧ (∀ n, rq = .vf n → r ≠ rHost 0 4) ∧
        (r = rSec 0x20 → v.getLsbD 0 = false → Yields (.registerWrite rq addr v) s (fun t => t = s)))) ∧
    (addr % 4 = 0 → s.target rq addr = .nowhere → Yields (.registerWrite rq addr v) s (fun t => t = s))

/-! ## Power -/

/-- R65, R298, R437, R439 to R445, R447, R451 to R456, R459: bricks and the limit in effect, retired phases and dark isles, shorts, current limits, the input
monitor, parking and switch-on, the margin sweep of an isle that leaves parking (R65), the refresh debts that start again at 0 (R298).
Where the rules leave a point open, the model's choice stands: log entries 62, 74, 75. -/
def Obligations.PowerEvents : Prop :=
  (∀ (s : State), (s.bricks = 0 → Yields .brickFailed s (fun t => t = s)) ∧
    (0 < s.bricks → Yields .brickFailed s (fun t => t.bricks = s.bricks - 1 ∧
      t.fld (rPwr 1) 14 0 = Nat.min s.pw.limit (25000 - 1600 * (16 - (s.bricks - 1))) % 2 ^ 15 ∧ (t.reg (rPwr 4)).getLsbD 0 = true ∧ t.mem = s.mem ∧
      (s.coldStart = true → s.devState < 6 → s.bricks ≤ 16 → t.devState = 9 ∧ t.fld (rSys 1) 31 16 = 5)))) ∧
  (∀ (s : State) (isle rail phase : Nat),
    let r := rIsle isle (0x8D0 + rail)
    ((80 ≤ isle ∨ railPhases rail ≤ phase ∨ (s.reg r).getLsbD phase = true) → Yields (.phaseRetired isle rail phase) s (fun t => t = s)) ∧
    (isle < 80 → phase < railPhases rail → (s.reg r).getLsbD phase = false → Yields (.phaseRetired isle rail phase) s (fun t =>
      t.reg r = s.reg r ||| BitVec.ofNat 32 (2 ^ phase) ∧ (t.reg (rIsle isle 0x8E0)).getLsbD 0 = true ∧
      ({ kind := 6, cause := 1, isle := isle, site := 255, element := rail * 32 + phase }, s.now) ∈ t.repairQ ∧
      (s.phasesOut isle rail + 1 = railSpare rail + 1 → t.isleState isle = 4 ∧ isle ∈ t.isleFail ∧ (t.reg (rIsle isle 0x8E0)).getLsbD 3 = true ∧
        (t.reg (rTel 8)).getLsbD 0 = true ∧ (rail = 4 → isle ∈ t.pw.vsOff)) ∧
      (s.phasesOut isle rail + 1 ≠ railSpare rail + 1 → t.isleState isle = s.isleState isle ∧ t.isleFail = s.isleFail ∧ t.mem = s.mem ∧
        t.parts = s.parts))) ∧
    ((80 ≤ isle ∨ 5 ≤ rail ∨ s.fld r 28 28 = 1) → Yields (.senseLost isle rail) s (fun t => t = s)) ∧
    (isle < 80 → rail < 5 → s.fld r 28 28 = 0 → Yields (.senseLost isle rail) s (fun t => t.fld r 28 28 = 1 ∧
      (t.reg (rIsle isle 0x8E0)).getLsbD 2 = true ∧ LogFrame s t [r, rIsle isle 0x8E0])) ∧
    (isle < 80 → s.isleState isle ≠ 4 → s.isleState isle ≠ 5 → Yields (.railOvervoltage isle rail) s (fun t => isle ∈ t.isleFail ∧
      (t.reg (rIsle isle 0x8E0)).getLsbD 4 = true ∧ (t.reg (rTel 8)).getLsbD 0 = true ∧ (rail ≠ 4 → t.isleState isle = 5))) ∧
    (∀ vs, (isle < 80 → (vs = true → s.pw.vsOff.contains isle = false) → (vs = false → s.isleState isle ≠ 5) →
      Yields (.isolated isle vs) s (fun t => isle ∈ t.isleFail ∧ (t.reg (rIsle isle 0x8E0)).getLsbD 4 = true ∧
        (t.reg (rTel 8)).getLsbD 0 = true ∧ (vs = false → t.isleState isle = 5) ∧
        (vs = true → isle ∈ t.pw.vsOff ∧ t.isleState isle = s.isleState isle ∧ t.mem = s.mem) ∧
        (∀ p, s.partOfPhys isle = some p → s.isleFail.contains isle = false → (t.part p).halted = true)))) ∧
    (∀ drops, (s.pwcUp = false → Yields (.crackCheck drops) s (fun t => t = s)) ∧
      (s.pwcUp = true → Yields (.crackCheck drops) s (fun t => t.cyc = s.cyc ∧
        (∀ d, drops = [d] → d.isle = isle → d.rail = rail → d.phase = phase → isle < 80 → phase < railPhases rail → rail < 5 →
          (s.reg r).getLsbD phase = false →
          let key := (isle * 8 + rail) * 32 + phase
          ((3 * d.pred < 2 * d.meas ∧ d.pred + 8 < d.meas) → fget 0 s.pw.crack key = 9 →
            (t.reg r).getLsbD phase = true ∧ (t.reg (rIsle isle 0x8E0)).getLsbD 1 = true) ∧
          ((3 * d.pred < 2 * d.meas ∧ d.pred + 8 < d.meas) → fget 0 s.pw.crack key < 9 →
            fget 0 t.pw.crack key = fget 0 s.pw.crack key + 1 ∧ t.regs = s.regs) ∧
          (¬(3 * d.pred < 2 * d.meas ∧ d.pred + 8 < d.meas) → fget 0 t.pw.crack key = 0 ∧ t.regs = s.regs)))))) ∧
  (∀ (s : State) (i g amps watts : Nat),
    (i < 80 → s.pw.hw.contains i = false → Yields (.curLimit (.isle i)) s (fun t => i ∈ t.pw.hw ∧ (t.reg (rIsle i 0x8E0)).getLsbD 5 = true ∧
      t.parts = s.parts ∧ t.mem = s.mem)) ∧
    (g < 8 → s.pw.hw.contains (100 + g) = false → Yields (.curLimit (.group g)) s (fun t => (100 + g) ∈ t.pw.hw ∧
      (∀ k, k < 10 → (t.reg (rIsle (g * 10 + k) 0x8E0)).getLsbD 5 = true))) ∧
    Yields (.curLimitRelease (.isle i) amps) s (fun t => t = { s with pw := t.pw } ∧ (amps < 100 → i ∉ t.pw.hw) ∧ (100 ≤ amps → t = s)) ∧
    Yields (.curLimitRelease (.group g) amps) s (fun t => t = { s with pw := t.pw } ∧ (amps < 540 → (100 + g) ∉ t.pw.hw) ∧ (540 ≤ amps → t = s)) ∧
    Yields (.inputSample watts) s (fun t => t.pw.samples = watts :: s.pw.samples.take 999 ∧ t.parts = s.parts ∧
      (30000 < watts → 200 ∈ t.pw.hw ∧ (200 ∉ s.pw.hw → (t.reg (rPwr 4)).getLsbD 1 = true ∧ (t.reg (rTel 8)).getLsbD 0 = true)) ∧
      (watts < 25000 → 200 ∉ t.pw.hw) ∧ (25000 ≤ watts → watts ≤ 30000 → (200 ∈ t.pw.hw ↔ 200 ∈ s.pw.hw)) ∧
      (24900000 ≤ t.pw.samples.sum → 201 ∈ t.pw.hw) ∧ (t.pw.samples.sum < 24000000 → 201 ∉ t.pw.hw))) ∧
  (∀ (s : State) (v : Word) (isle : Nat),
    let w := Nat.min (bits v.toNat 14 0) 25000
    (s.blocksOpen = false → Yields (.powerLimitWrite v) s (fun t => t = s) ∧ ∀ on, Yields (.parkRequest isle on) s (fun t => t = s)) ∧
    (s.blocksOpen = true → Yields (.powerLimitWrite v) s (fun t =>
      (s.fld (rPwr 0) 14 0 < w → t.reg (rPwr 0) = s.reg (rPwr 0) ∧ (t.reg (rPwr 4)).getLsbD 3 = true ∧ LogFrame s t [rPwr 4]) ∧
      (w ≤ s.fld (rPwr 0) 14 0 → OnlyRegs s t [rPwr 0] ∧ t.fld (rPwr 0) 14 0 = w))) ∧
    (s.blocksOpen = true → isle < 80 →
      let r := rPwr (0x300 + isle)
      (s.fld r 0 0 = 0 → Yields (.parkRequest isle true) s (fun t => t.fld r 0 0 = 1 ∧
        (s.pwcUp = true → s.isleFree isle = true → s.isleState isle = 2 → t.fld r 1 1 = 0 ∧ t.isleState isle = 3) ∧
        (s.isleFree isle = false → t.fld r 1 1 = 1 ∧ OnlyRegs s t [r]))) ∧
      Yields (.parkRequest isle false) s (fun t => t.fld r 1 0 = 0 ∧
        (s.isleState isle ≠ 3 → OnlyRegs s t [r]) ∧
        (s.isleState isle = 3 → s.fld (rThm (0x100 + isle)) 14 14 = 0 → (t.isleState isle = 1 ∨ t.isleState isle = 6) ∧ isle ∈ t.pw.unpark))) ∧
    (let first := (s.pw.wait.map Prod.fst).find? (fun i => i / 10 == isle / 10)
     ((s.isleState isle ≠ 6 ∨ s.pwcUp = false ∨ s.devState = 10 ∨ first ≠ some isle ∨ s.groupRoom isle = false) →
        Yields (.isleSwitchOn isle) s (fun t => t = s)) ∧
     (s.isleState isle = 6 → s.pwcUp = true → s.devState ≠ 10 → first = some isle → s.groupRoom isle = true → Yields (.isleSwitchOn isle) s (fun t =>
       fget 0 t.pw.wait isle = 0 ∧ t.isleState isle = (if s.pw.unpark.contains isle then 1 else 2) ∧ t = { s with pw := t.pw, regs := t.regs, cores := t.cores } ∧
       RegsOnly s t [rPwr (0x200 + isle)] ∧
       (s.pw.unpark.contains isle = true → t.cores = s.cores) ∧
       (s.pw.unpark.contains isle = false → (∀ c, s.isleOf c = isle → (t.core c).debts = []) ∧
         ∀ c, s.isleOf c ≠ isle → t.core c = s.core c)))) ∧
    (∀ sweeps, (s.isleState isle ≠ 1 ∨ s.pw.unpark.contains isle = false ∨ s.icUp isle = false) →
      Yields (.unparkComplete ⟨isle, sweeps⟩) s (fun t => t = s)) ∧
    (∀ sweeps, s.isleState isle = 1 → s.pw.unpark.contains isle = true → s.icUp isle = true →
      Yields (.unparkComplete ⟨isle, sweeps⟩) s (fun t => t.isleState isle = 2 ∧ isle ∉ t.pw.unpark ∧ t.mem = s.mem ∧ t.reqs = s.reqs ∧
        (∀ k, arrIsle k ≠ isle → t.arr k = s.arr k) ∧
        (∀ k ∈ s.arrs.map Prod.fst, arrIsle k = isle → (t.arr k).swept = true) ∧
        (∀ p, s.partOfPhys isle = some p → isle ∉ (t.part p).suspended ∧
          ∀ i, i ≠ isle → ((t.part p).suspended.contains i = (s.part p).suspended.contains i)))) ∧
    (∀ t0, fget 0 s.pw.wait isle = t0 + 1 →
      ((s.pwcUp = false ∨ s.now ≤ t0 + 5000000 ∨ s.pw.longWait.contains isle = true) → Yields (.groupWait isle) s (fun t => t = s)) ∧
      (s.pwcUp = true → t0 + 5000000 < s.now → s.pw.longWait.contains isle = false → Yields (.groupWait isle) s (fun t =>
        isle ∈ t.pw.longWait ∧ (t.reg (rPwr 4)).getLsbD 2 = true ∧ t.parts = s.parts ∧
        (s.groupRoom isle = true → LogFrame { s with pw := t.pw } t [rPwr 4])))))

/-- R437, R450, R452, Table 16-5: the power controller's period, when it runs: the limit is taken over, the measurements are shown, and duties step: every
Throughput partition rises when the input nears the limit, Latency partitions only when those are at 16; each falls back with headroom.
Where the rules leave a point open, the model's choice stands: log entries 71, 72, 73. -/
def Obligations.PowerControl : Prop :=
  ∀ (s : State) (inW inCv : Nat),
    (s.pwcUp = false → ∀ draws, Yields (.powerControlPeriod inW inCv draws) s (fun t => t = s)) ∧
    (s.pwcUp = true → (∀ p, p < 8 → ∀ i ∈ s.partPhys p, s.fld (rPwr (0x200 + i)) 12 3 ≤ s.effBudget i) →
      (∀ i, i < 80 → s.fld (rPwr (0x200 + i)) 12 3 ≤ s.effBudget i) → s.pw.longWait = [] →
      let lim := Nat.min (s.fld (rPwr 0) 14 0) (25000 - 1600 * (16 - s.bricks)) % 2 ^ 15
      let thr (p : Nat) : Prop := p < 8 ∧ (s.part p).loaded = true ∧ (s.part p).mode = 1
      let lat (p : Nat) : Prop := p < 8 ∧ (s.part p).loaded = true ∧ (s.part p).mode ≠ 1
      Yields (.powerControlPeriod inW inCv []) s (fun t => t.fld (rPwr 1) 14 0 = lim ∧ t.pw.limit = s.fld (rPwr 0) 14 0 ∧
        t.fld (rPwr 2) 14 0 = inW % 2 ^ 15 ∧ t.fld (rPwr 2) 27 15 = inCv % 2 ^ 13 ∧ t.mem = s.mem ∧
        (0 < lim → lim < inW + 250 → ∀ p, thr p → s.pduty p < 16 → t.pduty p = s.pduty p + 1) ∧
        (0 < lim → lim < inW + 250 → (∃ p, thr p ∧ s.pduty p < 16) → ∀ p, lat p → t.pduty p = s.pduty p) ∧
        (0 < lim → lim < inW + 250 → (∀ p, thr p → 16 ≤ s.pduty p) → ∀ p, lat p → s.pduty p < 16 → t.pduty p = s.pduty p + 1) ∧
        (inW + 1000 < lim → ∀ p, lat p → 0 < s.pduty p → t.pduty p = s.pduty p - 1) ∧
        (inW + 1000 < lim → (∀ p, lat p → s.pduty p = 0) → ∀ p, thr p → 0 < s.pduty p → t.pduty p = s.pduty p - 1) ∧
        (inW + 250 ≤ lim → lim ≤ inW + 1000 → ∀ p, p < 8 → t.pduty p = s.pduty p) ∧
        (lim = 0 → ∀ p, p < 8 → (s.part p).loaded = true → t.pduty p = 16)))

/-! ## Start, clocks and resets -/

/-- R3, R13, R70, R270, R298, R415 to R424, R428 to R431, R433, R554, Tables 15-1, 15-2, 15-7, 15-8: the start states and their exits, the slot selected, Failed and its
causes, losses of lock, what a cold and a warm restart keep; the grade shown once the image is verified (R3), columns mapped to spares (R70), no way out
of Shutdown but a reset (R13).
Where the rules leave a point open, the model's choice stands: log entries 2, 81, 82, 83, 84, 85. -/
def Obligations.StartAndResets : Prop :=
  let cold (s t : State) (st kind source : Nat) : Prop :=
    t = { State.reset with
      out := s.out, pending := s.pending, free := s.free, repRecs := s.repRecs, accEpoch := s.accEpoch + 1, regs := t.regs } ∧
    t.devState = st ∧ t.fld (rSys 3) 2 0 = kind ∧ t.fld (rSys 3) 4 3 = source ∧ t.fld (rSys 3) 31 16 = 0 ∧
    t.fld (rSys 0) 19 16 = s.fld (rSys 0) 19 16 ∧ ∀ r, r ∉ [rSys 0, rSys 1, rSys 3] → t.reg r = regReset r
  let warm (s t : State) (kind source : Nat) : Prop :=
    t.devState = 2 ∧ t.fld (rSys 3) 2 0 = kind ∧ t.fld (rSys 3) 4 3 = source ∧
    t.fld (rSys 3) 31 16 = Nat.min (s.fld (rSys 3) 31 16 + 1) 0xFFFF ∧ t.fld (rSys 1) 31 4 = 0 ∧
    t.mem = [] ∧ (∀ c l, fget 0 (t.core c).acc l = 0) ∧ t.accEpoch = s.accEpoch + 1 ∧ t.parts = [] ∧ t.reqs = [] ∧ t.tx = [] ∧ t.fabric.ports = [] ∧ t.fabric.ident = s.fabric.ident ∧
    t.sync = s.sync ∧ t.isleFail = s.isleFail ∧ t.siteFail = s.siteFail ∧ t.isleMap = s.isleMap ∧ t.coreMap = s.coreMap ∧ t.meas = s.meas ∧
    t.chMap = s.chMap ∧ (∀ k x, (k, x) ∈ s.strait → x.failed = true → ∃ y, (k, y) ∈ t.strait ∧ y.failed = true) ∧
    t.chain = s.chain ∧ t.cyc = s.cyc ∧ t.pending = s.pending ∧ t.fld (rPwr 0) 14 0 = 25000 ∧ t.reg (rTel 8) = s.reg (rTel 8) ∧
    t.reg (rCwy 1) = s.reg (rCwy 1) ∧ (∀ i, i < 80 → t.reg (rIsle i 0x8E0) = s.reg (rIsle i 0x8E0)) ∧
    (∀ fn, fn ≤ 8 → t.reg (rHost fn 0) = regReset (rHost fn 0))
  let reset (s t : State) (kind source : Nat) : Prop :=
    (s.devState = 0 → t = s) ∧
    (s.devState = 10 → s.isCool = true → cold s t 1 4 source) ∧
    (s.devState = 10 → s.isCool = false → t = { s with pw := { s.pw with heldReset := some source } }) ∧
    (s.devState ≠ 0 → s.devState ≠ 10 → (kind = 2 ∨ s.mapped = false) → cold s t 1 1 source) ∧
    (s.devState ≠ 0 → s.devState ≠ 10 → kind ≠ 2 → s.mapped = true → s.fwu = none → warm s t (if source = 3 then 3 else 2) source ∧
      (source ≠ 3 → t.linkUp = s.linkUp))
  let failed (s t : State) (cause d2 : Nat) : Prop :=
    t.devState = 9 ∧ t.fld (rSys 1) 31 16 = cause ∧ t.fld (rSys 1) 7 4 = d2 ∧ t.mem = s.mem ∧ t.reqs = s.reqs
  (∀ (s : State) (v : Word),
    (∀ rq : Requester, rq ≠ .pf → Yields (.sysResetWarm rq v) s (fun t => t = s) ∧ Yields (.sysResetCold rq v) s (fun t => t = s)) ∧
    ((bits v.toNat 15 8 ≠ 0xA5 ∨ (bits v.toNat 1 0 ≠ 1 ∧ bits v.toNat 1 0 ≠ 2)) → Yields (.sysResetWarm .pf v) s (fun t => t = s) ∧
      Yields (.sysResetCold .pf v) s (fun t => t = s) ∧ Yields (.sidebandResetRequest v) s (fun t => t = s)) ∧
    (∀ k, (k = 1 ∨ k = 2) → bits v.toNat 15 8 = 0xA5 → bits v.toNat 1 0 = k → Yields (.sysResetWarm .pf v) s (fun t => reset s t k 1) ∧
      Yields (.sysResetCold .pf v) s (fun t => reset s t k 1) ∧ Yields (.sidebandResetRequest v) s (fun t => reset s t k 2)) ∧
    (s.devState ≤ 5 → Yields .perstAssertion s (fun t => t = { s with linkUp := if s.devState = 0 then s.linkUp else false })) ∧
    (5 < s.devState → Yields .perstAssertion s (fun t => t.linkUp = false ∧ ∃ u, reset s u 1 3 ∧ t = { u with linkUp := false })) ∧
    (s.devState = 0 → Yields .inputPowerApplied s (fun t => cold s t 1 0 0)) ∧
    (s.devState ≠ 0 → Yields .inputPowerApplied s (fun t => t = s)) ∧
    Yields .inputPowerLoss s (fun t => cold s t 0 0 0)) ∧
  (∀ (s : State) (f : RootFacts),
    ((s.devState ≠ 1 ∨ s.isCool = false) → Yields .auxComplete s (fun t => t = s)) ∧
    (s.devState = 1 → s.isCool = true → Yields .auxComplete s (fun t => t.devState = 2 ∧ t.fld (rSys 4) 0 0 = 1 ∧ t.fld (rSys 4) 5 2 = 15 ∧
      OnlyRegs s t [rSys 1, rSys 4, rSys 0x12])) ∧
    (s.devState ≠ 2 → Yields (.rootComplete f) s (fun t => t = s)) ∧
    (s.devState = 2 → s.coldStart = false → Yields (.rootComplete f) s (fun t => t.devState = 3 ∧ t.reg64 (rSec 2) = f.nonce.toNat ∧
      t = { s with regs := t.regs } ∧ (∀ n, n < 16 → t.fld (rCwy (0x10 + n)) 7 7 = 1) ∧ t.reg (rSys 5) = s.reg (rSys 5) ∧
      t.reg (rSys 6) = s.reg (rSys 6))) ∧
    (s.devState = 2 → s.coldStart = true →
      let ok (x : SlotFacts) : Prop := f.floorOk = true ∧ x.sigOk = true ∧ f.floor ≤ x.version
      let sound : Prop := f.deviceOk = true ∧ f.owner ≠ OwnerRegion.invalid ∧ f.pufOk = true ∧ f.procsOk = true ∧ 16 ≤ s.bricks
      let boots (t : State) (x : SlotFacts) (slot fallback : Nat) : Prop := t.devState = 3 ∧ t.fld (rSys 5) 0 0 = slot ∧
        t.fld (rSys 5) 1 1 = fallback ∧ t.regN (rSys 6) = x.version % 2 ^ 32 ∧ t.reg64 (rSec 2) = f.nonce.toNat ∧
        t.regN (rSec 5) = f.floor % 2 ^ 32 ∧ t.fabric.ident = f.ident ∧ t.chain = f.chain ∧
        (∀ fn, fn ≤ 8 → t.regN (rHost fn 2) = x.ifMin % 2 ^ 32 ∧ t.regN (rHost fn 3) = x.ifMax % 2 ^ 32) ∧
        t.gridCols = (if f.grade = 0x40 then 8 else 9)
      -- two slots in the order of R420: one is read in full first, the other is the fallback
      let graded (t : State) : Prop := t.fld (rSys 0) 15 8 = (if f.grade = 0x40 then 0x40 else 0x48) ∧ t.gridCols = (if f.grade = 0x40 then 8 else 9)
      (∀ x y sx, (x, y, sx) = (f.slotA, f.slotB, 0) ∧ (ok f.slotB → f.slotB.version ≤ f.slotA.version) ∨
          (x, y, sx) = (f.slotB, f.slotA, 1) ∧ (ok f.slotA → f.slotA.version < f.slotB.version) → ok x →
        (x.fullOk = true → sound → Yields (.rootComplete f) s (fun t => boots t x sx 0)) ∧
        (x.fullOk = false → ok y → y.fullOk = true → sound → Yields (.rootComplete f) s (fun t => boots t y (1 - sx) 1)) ∧
        (x.fullOk = false → ¬(ok y ∧ y.fullOk = true) → Yields (.rootComplete f) s (fun t => failed s t 1 0)) ∧
        (x.fullOk = true →
          ((f.deviceOk = false ∨ f.owner = OwnerRegion.invalid) → Yields (.rootComplete f) s (fun t => failed s t 2 0)) ∧
          (f.deviceOk = true → f.owner ≠ OwnerRegion.invalid →
            (f.pufOk = false → Yields (.rootComplete f) s (fun t => failed s t 3 0 ∧ graded t)) ∧
            (f.pufOk = true → f.procsOk = false → Yields (.rootComplete f) s (fun t => failed s t 4 0 ∧ graded t)) ∧
            (f.pufOk = true → f.procsOk = true → s.bricks < 16 → Yields (.rootComplete f) s (fun t => failed s t 5 0 ∧ graded t))))) ∧
      (¬ ok f.slotA → ¬ ok f.slotB → Yields (.rootComplete f) s (fun t => failed s t 1 0)))) ∧
  (∀ (s : State) (found : List Defect),
    let next (i : Nat) : Prop := i < 80 ∧ i ∉ s.isleFail ∧ s.isleState i = 0 ∧ ∀ k, k < i → k ∈ s.isleFail ∨ s.isleState k ≠ 0
    (∀ res, (s.devState ≠ 3 ∨ s.pwcUp = false ∨ ¬ ∃ i, next i) → Yields (.islePowerUp res) s (fun t => t = s)) ∧
    (s.devState = 3 → s.pwcUp = true → ∀ i, next i →
      (s.groupAmps (i / 10) ≤ 540 → s.pw.wait = [] → Yields (.islePowerUp .ok) s (fun t => t.isleState i = 2 ∧
        t.fld (rSys 1) 15 8 = (s.fld (rSys 1) 15 8 + 1) % 256 ∧ t = { s with regs := t.regs, cores := t.cores } ∧
        RegsOnly s t [rPwr (0x200 + i), rSys 1] ∧ (∀ c, s.isleOf c = i → (t.core c).debts = []) ∧ ∀ c, s.isleOf c ≠ i → t.core c = s.core c)) ∧
      Yields (.islePowerUp .short) s (fun t => i ∈ t.isleFail ∧ t.isleState i = 5 ∧ t.devState = 3) ∧
      Yields (.islePowerUp .noRegulation) s (fun t => i ∈ t.isleFail ∧ t.devState = 3) ∧
      Yields (.islePowerUp .noLock) s (fun t => i ∈ t.isleFail ∧ t.devState = 3)) ∧
    (let ready := ∀ i, i < 80 → i ∈ s.isleFail ∨ s.isleState i = 2
     (s.devState = 3 → ready → Yields .poweringComplete s (fun t => t.devState = 4 ∧ OnlyRegs s t [rSys 1, rSys 0x14])) ∧
     ((s.devState ≠ 3 ∨ ¬ ready) → Yields .poweringComplete s (fun t => t = s))) ∧
    (∀ sweeps, s.devState ≠ 4 → Yields (.testingComplete ⟨found, sweeps⟩) s (fun t => t = s)) ∧
    (s.devState = 4 → (∀ i, i < 80 → s.absorbable i = true) →
      let sound (row : Nat) : Nat := ((List.range 10).filter (fun k => !s.isleFail.contains (row * 10 + k))).length
      ((∀ row, row < 8 → s.gridCols ≤ sound row) →
        Yields (.testingComplete ⟨[], []⟩) s (fun t => t.devState = 5 ∧ t.isleFail = s.isleFail ∧ t.siteFail = s.siteFail ∧ t.repairQ = s.repairQ ∧
          ∀ l, l < s.gridIsles → t.physIsle l / 10 = l / s.gridCols ∧ t.physIsle l ∉ s.isleFail) ∧
        (∀ d : Defect, s.coldStart = true → d.kind = 7 → d.isle < 80 → d.element < 36 → d.site < 169 → s.knownDefect d = false →
          Yields (.testingComplete ⟨[d], []⟩) s (fun t => t.devState = 5 ∧ ({ d with cause := 0 }, s.now) ∈ t.repairQ ∧
            t.fld (rIsle d.isle (0x8F0 + d.element)) 15 14 = 1)) ∧
        (∀ (x : ArrSweep) (m : LevelMeas), (∀ row, row < 8 → s.gridCols ≤ sound row) → x.isle < 80 → x.site < 169 → x.arr < 50 →
          x.levels = [m] → m.level ≤ 64 → m.col < 1056 → levelMargin m < 4 →
          let k := (x.isle * 169 + x.site) * 64 + x.arr
          (s.arr k).cols = [] → (s.arr k).spareMap = [] → (s.arr k).spareBad = 0 → (s.arr k).fill = none →
          Yields (.testingComplete ⟨[], [x]⟩) s (fun t => t.devState = 5 ∧ fget 0 (t.arr k).spareMap m.col = 1 ∧
            ({ kind := 3, cause := 0, isle := x.isle, site := x.site, element := x.arr + 64 * m.col }, s.now) ∈ t.repairQ))) ∧
      (∀ row, row < 8 → sound row < s.gridCols → (∀ k, k < row → s.gridCols ≤ sound k) →
        Yields (.testingComplete ⟨[], []⟩) s (fun t => failed s t 6 row))) ∧
    (∀ sw, s.coldStart = false → (∀ d ∈ found, d.kind ≠ 3) → exec (.testingComplete ⟨found, sw⟩) s = exec (.testingComplete ⟨[], sw⟩) s) ∧
    (s.devState = 5 → s.schUp = true → Yields .mappedComplete s (fun t => t.devState = 6 ∧ t.reqs = [] ∧
      t = { s with reqs := [], regs := t.regs } ∧ RegsOnly s t [rSys 1, rSys 0x16])) ∧
    ((s.devState ≠ 5 ∨ s.schUp = false) → Yields .mappedComplete s (fun t => t = s)) ∧
    (let st := s.devState
     let late := 1 ≤ st ∧ st ≤ 5 ∧ s.regN (rSys (0x10 + st)) + [0, 200, 5000, 3000, 90000, 2000].getD st 0 < (s.cyc - s.startCyc) / 1200000
     (late → Yields .stateLimitExceeded s (fun t => failed s t 7 st)) ∧ (¬ late → Yields .stateLimitExceeded s (fun t => t = s)))) ∧
  (∀ (s : State) (i : Nat),
    let n := Nat.min (s.fld (rSys 4) 31 24 + 1) 255
    let lost (t : State) : Prop := t.fld (rSys 4) 31 24 = n ∧ (t.reg (rTel 8)).getLsbD 5 = true
    (s.devState = 0 → ∀ pll, Yields (.pllLockLoss pll) s (fun t => t = s)) ∧
    (s.devState ≠ 0 →
      (i < 80 → Yields (.pllLockLoss (.isle i)) s (fun t => lost t ∧ i ∈ t.isleFail ∧ t.fld (rSys 4) 12 6 = i ∧ t.devState = s.devState ∧
        (∀ p, s.partOfPhys i = some p → i ∉ s.isleFail → (t.part p).halted = true))) ∧
      Yields (.pllLockLoss .west) s (fun t => lost t ∧ t.linkUp = false ∧ t.fld (rSys 4) 2 2 = 0 ∧ t.mem = s.mem ∧
        t.devState = (if s.devState = 7 ∨ s.devState = 8 then 6 else s.devState)) ∧
      Yields (.pllLockLoss .east) s (fun t => lost t ∧ t.fld (rSys 4) 3 3 = 0 ∧ t.fabric.ports = [] ∧ t.mem = s.mem ∧ t.devState = s.devState ∧
        (∀ k, k < 16 → t.fld (rPort k) 2 0 = 0 ∧ (s.devState ≠ 10 → t.fld (rPort k) 7 7 = 1))) ∧
      Yields (.pllLockLoss .north) s (fun t => lost t ∧ t.fld (rSys 4) 4 4 = 0 ∧ (s.devState ≠ 10 → failed s t 8 0) ∧
        (s.devState = 10 → t.devState = 10 ∧ t.parts = s.parts)) ∧
      Yields (.pllLockLoss .south) s (fun t => lost t ∧ t.fld (rSys 4) 5 5 = 0 ∧ (s.devState ≠ 10 → failed s t 8 0) ∧
        (s.devState = 10 → t.devState = 10 ∧ t.parts = s.parts))))

/-! ## Heat -/

/-- R13, R462 to R472, R476, R479, Tables 17-1, 17-2: sensors and their spares, the thermal states of an isle, the shutdown and its end, the duties, heat
parking and the coolant's warnings; no isle switches on in Shutdown (R13). The thresholds act on in-service sensors (R463).
Where the rules leave a point open, the model's choice stands: log entries 76, 77, 78, 79, 80. -/
def Obligations.ThermalControl : Prop :=
  (∀ (s : State) (isle : Nat) (rd : List Int),
    let r := rThm (0x100 + isle)
    let x (n : Nat) : Int := rd.getD n 0
    let live := isle < 80 ∧ rd.length = 36 ∧ s.devState ≠ 0 ∧ s.pw.vsOff.contains isle = false
    let usual := (∀ n, n < 32 → s.senState isle n = 0) ∧ (∀ n, 32 ≤ n → n < 36 → s.senState isle n = 2) ∧ (s.heatOf isle).hist = [] ∧
      (s.heatOf isle).unmapped = []
    let sane (n : Nat) : Prop := -320 ≤ x n ∧ x n ≤ 1200
    (¬ live → Yields (.sensorSample isle rd) s (fun t => t = s)) ∧
    (live → s.devState ≠ 10 → Yields (.sensorSample isle rd) s (fun t => ∀ n, n < 36 →
      t.fld (rSensor isle n) 11 0 = if s.senState isle n = 1 then 0x350 else tempCode (x n))) ∧
    (live → s.devState ≠ 10 → usual → (∀ n, n < 36 → sane n) → (∀ n, n < 32 → x n < 944 ∨ n ∉ (s.heatOf isle).hot) →
      ∀ m, (∀ n, n < 32 → x n ≤ m) → (∃ n, n < 32 ∧ x n = m) →
      let was := s.fld r 13 13 = 1
      Yields (.sensorSample isle rd) s (fun t => t.fld r 11 0 = tempCode m ∧
        t.fld r 25 24 = (if m < 720 then 0 else if m ≤ 800 then 1 else 2) ∧
        (t.fld r 12 12 = 1 ↔ 760 ≤ m ∨ (s.fld r 12 12 = 1 ∧ 720 ≤ m)) ∧ (t.fld r 13 13 = 1 ↔ 840 ≤ m ∨ (was ∧ 808 ≤ m)) ∧
        t.fld r 19 15 = (if 840 ≤ m ∧ ¬ was then Nat.max 4 (s.fld r 19 15) else s.fld r 19 15) ∧
        (840 ≤ m → ¬ was → (t.reg (rThm 0x10)).getLsbD 1 = true ∧
          t.fld (rThm (0x200 + isle)) 27 12 = Nat.min (s.fld (rThm (0x200 + isle)) 27 12 + 1) 0xFFFF) ∧
        (760 ≤ m → s.fld r 12 12 = 0 → (t.reg (rThm 0x10)).getLsbD 0 = true) ∧
        (∀ n, n < 36 → t.senState isle n = s.senState isle n) ∧ t.parts = s.parts ∧ t.mem = s.mem ∧ t.devState = s.devState)) ∧
    (∀ n, live → s.devState ≠ 10 → usual → n < 32 → ¬ sane n → (∀ k, k < 36 → k ≠ n → sane k) → (∀ k, k < 32 → k ∉ (s.heatOf isle).hot) →
      Yields (.sensorSample isle rd) s (fun t => t.senState isle n = 1 ∧ (t.reg (rThm 0x10)).getLsbD 2 = true ∧
        ({ kind := 7, cause := 1, isle := isle, site := 255, element := n }, s.now) ∈ t.repairQ ∧
        (∀ sp, s.icUp isle = true → fget 0 (s.heatOf isle).spareOf n = sp + 1 → 32 ≤ sp → sp < 36 → (s.heatOf isle).mapping = [] →
          fget 0 (t.heatOf isle).mapping sp = n + 1) ∧
        (s.icUp isle = true → fget 0 (s.heatOf isle).spareOf n = 0 → (t.reg (rThm 0x10)).getLsbD 4 = true) ∧
        (s.icUp isle = false → n ∈ (t.heatOf isle).unmapped) ∧ t.mem = s.mem)) ∧
    (∀ n, live → s.devState ≠ 10 → n ∈ (s.heatOf isle).hot → n < 36 → s.senState isle n ≠ 1 → s.inService isle n = true → 944 ≤ x n →
      Yields (.sensorSample isle rd) s (fun t => t.devState = 10 ∧ t.mem = [] ∧ t.loads = [] ∧ t.fabric.ports = [] ∧
        (t.reg (rTel 8)).getLsbD 1 = true ∧ (∀ i, i < 80 → t.isleState i = 0 ∨ t.isleState i = 4 ∨ t.isleState i = 5) ∧
        (∀ p, p < 8 → (s.part p).loaded = true → (t.part p).halted = true) ∧ t.linkUp = s.linkUp)) ∧
    (live → s.devState = 10 → (s.pw.heldReset = none → Yields (.sensorSample isle rd) s (fun t => t.devState = 10)) ∧
      (∀ src, src < 4 → s.pw.heldReset = some src → usual → (∀ n, n < 36 → sane n ∧ x n < 680) →
        (∀ i, i < 80 → i ≠ isle → ∀ n, n < 36 → s.senState i n = 1 ∨ codeTemp (s.fld (rSensor i n) 11 0) < 680) →
        Yields (.sensorSample isle rd) s (fun t => t.devState = 1 ∧ t.fld (rSys 3) 2 0 = 4 ∧ t.fld (rSys 3) 4 3 = src ∧ t.mem = [] ∧
          t.parts = [] ∧ t.out = s.out)))) ∧
  (∀ (s : State) (isle n spare : Nat) (reading : Int),
    ((80 ≤ isle ∨ s.devState = 0 ∨ s.pw.vsOff.contains isle = true ∨ 36 ≤ n ∨ s.senState isle n = 1) →
      Yields (.sensorSelfCheck isle [n]) s (fun t => t = s)) ∧
    (isle < 80 → s.devState ≠ 0 → s.pw.vsOff.contains isle = false → n < 36 → s.senState isle n ≠ 1 →
      Yields (.sensorSelfCheck isle [n]) s (fun t => t.senState isle n = 1 ∧ (t.reg (rThm 0x10)).getLsbD 2 = true ∧
        t.repairQ = s.repairQ ++ [({ kind := 7, cause := 1, isle := isle, site := 255, element := n }, s.now)] ∧
        t.fld (rSensor isle n) 11 0 = s.fld (rSensor isle n) 11 0 ∧ t.mem = s.mem ∧ t.parts = s.parts)) ∧
    (fget 0 (s.heatOf isle).mapping spare = 0 → Yields (.sensorSpareMapped isle spare reading) s (fun t => t = s)) ∧
    (fget 0 (s.heatOf isle).mapping spare = n + 1 → s.icUp isle = false → Yields (.sensorSpareMapped isle spare reading) s (fun t => t = s)) ∧
    (isle < 80 → n < 32 → 32 ≤ spare → spare < 36 → fget 0 (s.heatOf isle).mapping spare = n + 1 → s.icUp isle = true →
      -320 ≤ reading → reading ≤ 1200 → Yields (.sensorSpareMapped isle spare reading) s (fun t => t.senState isle spare = 3 ∧
        t.senMapped isle spare = n ∧ t.fld (rSensor isle spare) 11 0 = tempCode reading ∧ t.inService isle spare = true ∧
        (s.senState isle n = 1 → t.inService isle n = false) ∧ fget 0 (t.heatOf isle).mapping spare = 0 ∧
        (t.reg (rThm 0x10)).getLsbD 3 = true ∧ LogFrame { s with heat := t.heat } t [rSensor isle spare, rThm 0x10]))) ∧
  (∀ (s : State) (isle : Nat),
    let r := rThm (0x100 + isle)
    let temp := codeTemp (s.fld r 11 0)
    (∀ f : Int, -2048 ≤ f → f < 2048 →
      let thr := min (codeTemp (s.fld (rThm 8) 19 8)) 832
      let p := s.fld r 23 20
      (s.pwcUp = false → ∀ fs, Yields (.thermalForecast fs) s (fun t => t = s)) ∧
      (s.pwcUp = true → isle < 80 → s.isleState isle = 2 → p ≤ 12 → Yields (.thermalForecast [(isle, f)]) s (fun t =>
        OnlyRegs s t [r, rThm (0x200 + isle)] ∧ t.fld (rThm (0x200 + isle)) 11 0 = tempCode f ∧
        (thr ≤ f → t.fld r 23 20 = Nat.min 12 (p + 1)) ∧ (f < thr - 32 → t.fld r 23 20 = p - 1) ∧
        (thr - 32 ≤ f → f < thr → t.fld r 23 20 = p)))) ∧
    (let long := ∃ a, (s.heatOf isle).fullAt = some a ∧ a + 50000000 ≤ s.now ∧ 808 ≤ temp
     let alone := s.partOfPhys isle = none ∧ s.fld r 13 13 = 1
     let st := s.isleState isle
     ((80 ≤ isle ∨ s.pwcUp = false ∨ s.fld r 14 14 = 1 ∨ ¬(long ∨ alone) ∨ st = 0 ∨ st = 4 ∨ st = 5) →
       Yields (.heatPark isle) s (fun t => t = s)) ∧
     (isle < 80 → s.pwcUp = true → s.fld r 14 14 = 0 → (long ∨ alone) → (st = 1 ∨ st = 2 ∨ st = 3) → Yields (.heatPark isle) s (fun t =>
       t.fld r 14 14 = 1 ∧ t.isleState isle = 3 ∧ (t.reg (rThm 0x10)).getLsbD 6 = true ∧ t.mem = s.mem ∧
       (∀ p, s.partOfPhys isle = some p → isle ∈ (t.part p).suspended) ∧
       (∀ l ld, s.logicalIsle isle = some l → s.loadAt l = some ld → ∀ x ∈ t.loads, x.part ≠ ld.part)))) ∧
    (let cool := ∃ a, (s.heatOf isle).coolAt = some a ∧ a + 100000000 ≤ s.now
     ((80 ≤ isle ∨ s.pwcUp = false ∨ s.fld r 14 14 = 0 ∨ ¬ cool) → Yields (.heatUnpark isle) s (fun t => t = s)) ∧
     (isle < 80 → s.pwcUp = true → s.fld r 14 14 = 1 → cool → Yields (.heatUnpark isle) s (fun t => t.fld r 14 14 = 0 ∧ t.mem = s.mem ∧
       (s.isleState isle = 3 → s.fld (rPwr (0x300 + isle)) 0 0 = 1 → OnlyRegs s t [r] ∧ t.isleState isle = 3) ∧
       (s.devState = 10 → OnlyRegs s t [r]) ∧
       (s.devState ≠ 10 → s.isleState isle = 3 → s.fld (rPwr (0x300 + isle)) 0 0 = 0 → (t.isleState isle = 1 ∨ t.isleState isle = 6) ∧ isle ∈ t.pw.unpark))))) ∧
  (∀ (s : State) (inlet outlet flow : Nat) (inRange : Bool),
    let bad := inlet < 120 ∨ 280 < inlet ∨ flow < 400 ∨ inRange = false
    let run := Yields (.coolantSample inlet outlet flow inRange) s
    (s.devState = 0 → run (fun t => t = s)) ∧
    (s.devState ≠ 0 → run (fun t => t.fld (rThm 4) 9 0 = inlet % 1024 ∧ t.fld (rThm 4) 19 10 = outlet % 1024 ∧
      t.fld (rThm 4) 29 20 = flow % 1024 ∧ t.mem = s.mem ∧ t.parts = s.parts ∧
      (¬ bad → t.pw.coolBad = none ∧ t.pw.coolWarn = none ∧ RegsOnly s t [rThm 4]) ∧
      (bad → s.pw.coolBad = none → t.pw.coolBad = some s.now ∧ RegsOnly s t [rThm 4]) ∧
      (∀ a, bad → s.pw.coolBad = some a → t.pw.coolBad = some a ∧
        (s.now < a + 1000000000 → RegsOnly s t [rThm 4]) ∧
        (a + 1000000000 ≤ s.now → s.pw.coolWarn = none → (t.reg (rThm 0x10)).getLsbD 5 = true ∧ t.pw.coolWarn = some s.now) ∧
        (∀ w, s.pw.coolWarn = some w → s.now < w + 60000000000 → RegsOnly s t [rThm 4])))))

/-! ## Failures and repair -/

/-- R481, R484, R487, R488, R490 to R494, R496, Tables 18-1, 18-4, 18-5: a failed site and the recovery of its partition, a failed isle and its spare,
the repair commands, and the repair log.
Where the rules leave a point open, the model's choice stands: log entries 25, 87, 88, 89. -/
def Obligations.FailuresAndRepair : Prop :=
  (∀ (s : State) (isle site item : Nat),
    let k := isle * 169 + site
    let ok := isle < 80 ∧ site < 169 ∧ 0 < item ∧ item ≤ 5 ∧ fget 0 s.siteFail k = 0 ∧ s.isleFail.contains isle = false
    let u : State := { s with siteFail := fset 0 s.siteFail k item }
    let auto := s.fld (rSys 0x40) 0 0 = 1
    (¬ ok → Yields (.coreFailed isle site item) s (fun t => t = s)) ∧
    (ok → Yields (.coreFailed isle site item) s (fun t => fget 0 t.siteFail k = item ∧ k ∉ t.siteCand ∧
      (t.reg (rIsle isle 0x922)).getLsbD 1 = true ∧ (t.reg (rTel 8)).getLsbD 2 = true ∧
      ({ kind := 1, cause := 1, isle := isle, site := site, element := 0 }, s.now) ∈ t.repairQ ∧
      (item = 3 → t.fld (rSite k 0x921) 20 13 = Nat.min (s.fld (rSite k 0x921) 20 13 + 1) 255) ∧ t.mem = s.mem ∧
      (u.absorbable isle = false → isle ∈ t.isleFail ∧
        ∀ c p, s.coreAt isle site = some c → s.partOf c = some p → (t.part p).halted = true ∧ (t.part p).recovery = none) ∧
      (u.absorbable isle = true → t.isleFail = s.isleFail ∧
        (s.coreAt isle site = none → t.parts = s.parts ∧ t.reqs = s.reqs ∧ t.coreMap = s.coreMap) ∧
        (∀ c p, s.coreAt isle site = some c → s.partOf c = some p →
          (∃ r, (t.part p).recovery = some r ∧ r.isle = isle ∧ r.site = site ∧ r.step = (if auto then 2 else 0) ∧ (item = 5 → r.lost = true)) ∧
          (t.part p).halted = true ∧ (t.part p).groups = [] ∧ PartsOnly s t [p] ∧ t.coreMap = s.coreMap ∧
          t.fld (rSys 0x41) 3 0 = (if auto then 1 else 7) ∧ t.fld (rSys 0x41) 16 10 = isle ∧
          (∀ e, ((s.part p).groups.find? (fun g => g.entry == e) = none → t.req e = s.req e) ∧
            (∀ g, (s.part p).groups.find? (fun g => g.entry == e) = some g → t.req e = { s.req e with pos := g.pos0 }))) ∧
        (∀ c l, s.coreAt isle site = some c → s.partOf c = none → s.logicalIsle isle = some l → auto →
          t.parts = s.parts ∧ ∀ row col, row < 12 → col < 12 → t.siteOf (mkCore l row col) = u.sitePlan isle row col))))) ∧
  (∀ (s : State) (p : Nat) (r : Recovery) (image : Option Bytes),
    ((s.part p).recovery = none → Yields (.recoveryPlanned p) s (fun t => t = s) ∧ Yields (.recoveryCopyDone p) s (fun t => t = s) ∧
      Yields (.recoveryReprogrammed p image) s (fun t => t = s) ∧ Yields (.recoveryRewriteDone p) s (fun t => t = s)) ∧
    ((s.part p).recovery = some r →
      ((r.step ≠ 2 ∨ s.icUp r.isle = false ∨ (r.lost = true ∧ s.schUp = false)) → Yields (.recoveryPlanned p) s (fun t => t = s)) ∧
      (∀ l, r.step = 2 → s.icUp r.isle = true → s.logicalIsle r.isle = some l →
        (r.lost = false → Yields (.recoveryPlanned p) s (fun t => (t.part p).recovery = some { r with step := 3, moved := s.coreMoves l } ∧
          PartsOnly s t [p] ∧ t = { s with parts := t.parts, regs := t.regs } ∧ RegsOnly s t [rSys 0x41] ∧
          t.fld (rSys 0x41) 6 0 = 1 + 16 * 3)) ∧
        (r.lost = true → s.schUp = true → Yields (.recoveryPlanned p) s (fun t => t.fld (rSys 0x41) 6 0 = 3 + 16 * 3 ∧
          (t.part p).recovery = some { r with step := 3, moved := s.coreMoves l } ∧
          ∀ m ∈ s.coreMoves l, fget 0 s.siteFail (r.isle * 169 + m.2.1) = 5 →
            ((s.part p).staging = none → (t.part p).other = 0) ∧ (t.reg (rIsle r.isle 0x922)).getLsbD 4 = true ∧
            (t.reg (rTel 8)).getLsbD 2 = true))) ∧
      ((r.step ≠ 3 ∨ r.lost = true ∨ s.icUp r.isle = false) → Yields (.recoveryCopyDone p) s (fun t => t = s)) ∧
      (r.step = 3 → r.lost = false → s.icUp r.isle = true → (r.moved.map Prod.fst).Nodup → Yields (.recoveryCopyDone p) s (fun t =>
        (t.part p).recovery = some { r with step := 4 } ∧ (∀ m ∈ r.moved, t.siteOf m.1 = m.2.2) ∧
        (∀ c, c ∉ r.moved.map Prod.fst → t.siteOf c = s.siteOf c) ∧ t.mem = s.mem ∧ t.reqs = s.reqs ∧ t.fld (rSys 0x41) 6 0 = 1 + 16 * 4)) ∧
      ((r.step ≠ 4 ∨ s.icUp r.isle = false) → Yields (.recoveryReprogrammed p image) s (fun t => t = s)) ∧
      (r.step = 4 → s.icUp r.isle = true → p < 8 →
        (s.dma 0 image = none → Yields (.recoveryReprogrammed p image) s (fun t => (t.part p).recovery = none ∧
          (t.part p).halted = (s.part p).halted ∧ t.regN (rSch (0xF00 + p)) = 0x13 + 4 * 2 ^ 24 ∧ t.mem = s.mem ∧ t.reqs = s.reqs)) ∧
        (∀ img, s.dma 0 image = some img → Yields (.recoveryReprogrammed p image) s (fun t => (t.part p).recovery = some { r with step := 5 } ∧
          (t.part p).halted = true ∧ (t.part p).score = 0 ∧ (t.part p).beat = 0 ∧ t.reqs = s.reqs ∧ t.isleFail = s.isleFail ∧
          t.fld (rSys 0x41) 6 0 = 1 + 16 * 5))) ∧
      ((r.step ≠ 5 ∨ s.icUp r.isle = false ∨ s.schUp = false) → Yields (.recoveryRewriteDone p) s (fun t => t = s)) ∧
      (let slot := (s.part p).sourceSlot
       let fails (m : CoreId × Nat × Nat) : Prop := slot ≠ (s.part p).liveSlot ∧ s.slotBad m.1 slot (s.afmtOfSlot m.1 slot) = true
       r.step = 5 → s.icUp r.isle = true → s.schUp = true → Yields (.recoveryRewriteDone p) s (fun t => (t.part p).recovery = none ∧
        (t.reg (rIsle r.isle 0x922)).getLsbD 2 = true ∧ t.fld (rSys 0x41) 6 0 = 2 ∧ t.reqs = s.reqs ∧
        ((s.part p).wop = none → (s.part p).liveValid = true → (t.part p).started = true ∧ (t.part p).halted = false ∧
          (t.part p).startAt = some s.cyc) ∧
        (∀ w, (s.part p).wop = some w → 3 ≤ w.step → w.first = false → (∃ m ∈ r.moved, fails m) → (t.part p).other = 0) ∧
        (∀ w, (s.part p).wop = some w → 3 ≤ w.step → w.step ≠ 5 → (∀ m ∈ r.moved, ¬ fails m) → (t.part p).wop = some w ∧ (t.part p).halted = (s.part p).halted))))) ∧
  (∀ (s : State) (isle p sp : Nat) (image : Option Bytes),
    let others (t : State) : Prop := ∀ q, q ≠ p → (t.part q).halted = (s.part q).halted ∧ (t.part q).loaded = (s.part q).loaded
    ((isle ∉ s.isleDue ∨ s.schUp = false) → Yields (.isleFailed isle image) s (fun t => t = s)) ∧
    (isle ∈ s.isleDue → s.schUp = true →
      (s.partOfPhys isle = none → Yields (.isleFailed isle image) s (fun t => t = { s with isleDue := t.isleDue } ∧ isle ∉ t.isleDue)) ∧
      (s.partOfPhys isle = some p →
        Yields (.isleFailed isle image) s (fun t => (t.part p).recovery = none ∧
          ((s.part p).staging = none → (t.part p).wop = none) ∧ (t.part p).staging = (s.part p).staging ∧
          ∀ e, (s.req e).state ≠ 0 → (s.req e).part = p →
            (∀ x ∈ (s.ring (s.req e).func 1 (s.req e).cring).held, x.1 = some e → x.2.1 = false) → (t.req e).state = 0 ∨ 5 ≤ (t.req e).state) ∧
        (s.findSpare isle = none → Yields (.isleFailed isle image) s (fun t => isle ∉ t.isleDue ∧ (t.part p).halted = true ∧
          t.fld (rSys 0x41) 3 0 = 4 ∧ (t.reg (rIsle isle 0x922)).getLsbD 7 = true ∧ t.isleMap = s.isleMap ∧ others t)) ∧
        (s.findSpare isle = some sp → s.fld (rSys 0x40) 1 1 = 0 → Yields (.isleFailed isle image) s (fun t => isle ∉ t.isleDue ∧
          (t.part p).halted = true ∧ t.fld (rSys 0x41) 3 0 = 7 ∧ t.isleMap = s.isleMap)) ∧
        (s.findSpare isle = some sp → s.fld (rSys 0x40) 1 1 = 1 → s.isleState sp = 2 → p < 8 → isle < 80 →
          let next (l : Nat) : Nat := if isle < sp then l + 1 else l - 1
          Yields (.isleFailed isle image) s (fun t => isle ∉ t.isleDue ∧ (t.reg (rIsle isle 0x922)).getLsbD 5 = true ∧
            (t.part p).liveValid = false ∧ (t.part p).other = (if (s.part p).staging.isSome then 1 else 0) ∧ t.fld (rSys 0x41) 3 0 = 2 ∧ others t ∧
            (∀ l, l ∉ s.movedIsles isle sp → t.physIsle l = s.physIsle l) ∧
            (∀ l ∈ s.movedIsles isle sp, t.physIsle l = if next l ∈ s.movedIsles isle sp then s.physIsle (next l) else sp) ∧
            (s.dma 0 image = none → (t.part p).halted = true ∧ t.regN (rSch (0xF00 + p)) = 0x13 + 4 * 2 ^ 24) ∧
            (s.dma 0 image ≠ none → (t.part p).halted = false)))))) ∧
  (∀ (s : State) (isle site : Nat) (image : Option Bytes),
    let k := isle * 169 + site
    let refused (t : State) : Prop := t.fld (rSys 0x41) 3 0 = 6 ∧ OnlyRegs s t [rSys 0x41]
    let idle := s.isleDue = [] ∧ s.resup = none ∧ ∀ p r, p < 8 → (s.part p).recovery = some r → r.step = 0
    let open_ := s.devState ≠ 0 ∧ s.devState ≠ 10
    (¬ open_ → Yields (.coreRepair isle site) s (fun t => t = s) ∧ Yields (.isleRetirement isle image) s (fun t => t = s) ∧
      Yields (.resupply isle site image) s (fun t => t = s)) ∧
    (open_ →
      ((80 ≤ isle ∨ 169 ≤ site ∨ ¬ idle) → Yields (.coreRepair isle site) s refused) ∧
      (isle < 80 → site < 169 → idle → k ∈ s.siteCand → Yields (.coreRepair isle site) s (fun t => fget 0 t.siteFail k = 7 ∧ k ∉ t.siteCand ∧
        ({ kind := 1, cause := 3, isle := isle, site := site, element := 0 }, s.now) ∈ t.repairQ)) ∧
      (∀ p r, isle < 80 → site < 169 → idle → k ∉ s.siteCand → p < 8 → (s.part p).recovery = some r → r.isle = isle →
        (∀ q r', q < p → (s.part q).recovery = some r' → r'.isle ≠ isle) → Yields (.coreRepair isle site) s (fun t =>
          (t.part p).recovery = some { r with step := 2 } ∧ t.fld (rSys 0x41) 6 0 = 1 + 16 * 2 ∧ PartsOnly s t [p] ∧ RegsOnly s t [rSys 0x41])) ∧
      ((80 ≤ isle ∨ (¬ idle ∧ isle ∉ s.isleDue)) → Yields (.isleRetirement isle image) s refused) ∧
      (isle < 80 → isle ∉ s.isleFail → idle → s.partOfPhys isle = none → Yields (.isleRetirement isle image) s (fun t =>
        isle ∈ t.isleFail ∧ ({ kind := 8, cause := 3, isle := isle, site := 255, element := 0 }, s.now) ∈ t.repairQ ∧
        t.fld (rSys 0x41) 3 0 = 2 ∧ t.parts = s.parts)) ∧
      (∀ p, isle < 80 → isle ∉ s.isleFail → idle → s.partOfPhys isle = some p → s.findSpare isle = none →
        Yields (.isleRetirement isle image) s (fun t => isle ∈ t.isleFail ∧ (t.part p).halted = true ∧ t.fld (rSys 0x41) 3 0 = 4)) ∧
      ((∀ p r, p < 8 → (s.part p).recovery = some r → ¬(r.step = 3 ∧ r.lost = true)) →
        ((s.coreAt isle site = none ∨ ¬ idle) → Yields (.resupply isle site image) s refused) ∧
        (∀ c p img, s.coreAt isle site = some c → s.partOf c = some p → s.dma 0 image = some img → idle →
          ((s.part p).busy = true → Yields (.resupply isle site image) s refused) ∧
          ((s.part p).busy = false → (s.part p).liveValid = true →
            (s.liveImage p img = false → wimgTag img ≠ (s.part p).tag → Yields (.resupply isle site image) s (fun t =>
              t.fld (rSys 0x41) 3 0 = 5 ∧ OnlyRegs s t [rSys 0x41])) ∧
            (s.liveImage p img = true → Yields (.resupply isle site image) s (fun t => t.fld (rSys 0x41) 3 0 = 1 ∧ t.resup = some c ∧
              t = { s with cores := t.cores, regs := t.regs, resup := t.resup } ∧ CoresOnly s t [c] ∧ RegsOnly s t [rSys 0x41] ∧
              (t.core c).claims.length = (s.core c).claims.length + ((coreWeights img (s.dirIdx (s.part p) c)).length + 63) / 64))))) ∧
      (∀ p r img, p < 8 → (s.part p).recovery = some r → r.step = 3 → r.lost = true →
        (∀ q r', q < p → (s.part q).recovery = some r' → ¬(r'.step = 3 ∧ r'.lost = true)) → s.dma 0 image = some img →
        (s.liveImage p img = false → wimgTag img ≠ (s.part p).tag → Yields (.resupply isle site image) s (fun t =>
          t.fld (rSys 0x41) 3 0 = 5 ∧ OnlyRegs s t [rSys 0x41])) ∧
        (s.liveImage p img = true → Yields (.resupply isle site image) s (fun t =>
          (t.part p).recovery = some { r with step := 4, lost := false } ∧ t.fld (rSys 0x41) 6 0 = 1 + 16 * 4)))) ∧
    (s.resup = none → Yields (.resupplyDone isle site) s (fun t => t = s)) ∧
    (∀ c, s.resup = some c → ((s.coreAt isle site ≠ some c ∨ s.writesWait c = true) → Yields (.resupplyDone isle site) s (fun t => t = s)) ∧
      (s.coreAt isle site = some c → s.writesWait c = false → Yields (.resupplyDone isle site) s (fun t => t.resup = none ∧
        t.fld (rSys 0x41) 3 0 = 2 ∧ t = { s with resup := none, regs := t.regs, arrs := t.arrs } ∧ RegsOnly s t [rSys 0x41] ∧
        (∀ n, n < 48 → (t.arr (s.arrKey c n)).badWin = []) ∧ ∀ k, (∀ n, n < 48 → k ≠ s.arrKey c n) → t.arr k = s.arr k)))) ∧
  (∀ (s : State),
    ((s.repairQ = [] ∨ s.secUp = false ∨ s.devState ≤ 2) → Yields .repairLogAppend s (fun t => t = s)) ∧
    (∀ d a rest, s.repairQ = (d, a) :: rest → s.secUp = true → 2 < s.devState →
      (s.repRoom = 0 → Yields .repairLogAppend s (fun t => t.repairQ = rest ∧ t.repRecs = s.repRecs ∧ t.fld (rSys 5) 2 2 = 1 ∧
        LogFrame { s with repairQ := rest } t [rSys 5])) ∧
      (0 < s.repRoom → s.repRoom ≤ 524288 → Yields .repairLogAppend s (fun t => t.repairQ = rest ∧ t.repRoom = s.repRoom - 1 ∧
        t.fld (rSys 5) 31 16 = (s.repRoom - 1) / 32 ∧ RegsOnly s t [rSys 5] ∧
        ∃ b, t.repRecs = s.repRecs ++ [b] ∧ b.length = 32 ∧
          b.take 28 = natLe 1 d.kind ++ natLe 1 d.cause ++ natLe 1 d.isle ++ natLe 1 d.site ++ natLe 2 d.element ++ natLe 2 0 ++ natLe 8 a ++
            natLe 4 (524288 - s.repRoom) ++ List.replicate 8 0 ∧
          b.drop 28 = natLe 4 (crcBytes (b.take 28))))))

/-! ## The causeway's links, numbers, routes and streams -/

/-- R394, R396 to R404, R414: hellos and the election, number requests and grants, route vectors, lane failures and retraining, replays, packets
received, and the end-to-end streams with their acknowledgements, refusals, retransmissions and failures.
R398: what goes out of a port next, of what has credit: packets of the link itself first; then FV1 while it has at most a quarter of the units sent,
or where nothing else waits; then of FV0, FV2 and FV3 one that has been served least by its weight; how the shares are measured is the model's choice (log entry 47).
Where the rules leave a point open, the model's choice stands: log entries 44, 45, 46, 47, 48. -/
def Obligations.FabricLinksAndPorts : Prop :=
  (
  let bump (s : State) (r hi lo n : Nat) : Nat := Nat.min (s.fld r hi lo + n) (2 ^ (hi + 1 - lo) - 1)
  (∀ (s : State) (n : Nat) (m : HelloMsg),
    ((16 ≤ n ∨ s.width n = 0) → Yields (.hello n m) s (fun t => t = s)) ∧
    (n < 16 → s.width n ≠ 0 → Yields (.hello n m) s (fun t => (t.port n).nbr = some m ∧ (t.port n).nbrAt = s.now ∧
      (m.num.isSome = true → m.num = s.nodeNum → m.ident < s.fabric.ident → t.nodeNum = none ∧
        t.fld (rCwy 0x21) 31 24 = bump s (rCwy 0x21) 31 24 1 ∧ t.fabric.rxs = []) ∧
      ((m.num = none ∨ m.num ≠ s.nodeNum ∨ s.fabric.ident ≤ m.ident) → t.nodeNum = s.nodeNum) ∧
      (m.dist + 1 < 64 → (∀ k, k < 16 → k ≠ n → (s.port k).nbr = none) →
        (m.lowest < s.fabric.ident → t.fabric.lowest = m.lowest ∧ t.fabric.dist = m.dist + 1 ∧ t.fabric.parent = some n ∧
          t.fld (rCwy 0) 19 14 = m.dist + 1 ∧ t.isAssigner = false) ∧
        (s.fabric.ident ≤ m.lowest → t.fabric.lowest = s.fabric.ident ∧ t.fabric.dist = 0 ∧ t.fabric.parent = none ∧
          t.fld (rCwy 0) 19 14 = 0)))) ∧
    ((∀ k, k < 16 → s.width k = 0) → Yields .helloTimer s (fun t => t = s)) ∧
    (n < 16 → s.width n ≠ 0 → (s.port n).txq = [] → (s.port n).replay.length < 256 → Yields .helloTimer s (fun t =>
      (∃ p, Out.packet n p ∈ t.out ∧ p.kind = 1 ∧ (helloOf p.kd).ident = s.fabric.ident % 2 ^ 64) ∧
      (s.fabric.dist = 0 → s.fabric.parent = none → 2 ≤ s.fabric.selfAdv → t.isAssigner = true ∧
        (s.nodeNum = none → s.fabric.nums = [] → t.nodeNum = some (s.fld (rCwy 1) 11 0))) ∧
      (s.fabric.dist = 0 → s.fabric.parent = none → s.fabric.selfAdv < 2 → t.isAssigner = s.isAssigner ∧
        t.fabric.selfAdv = s.fabric.selfAdv + 1) ∧
      (s.fabric.parent = some n → s.nodeNum = none → s.isAssigner = false → (s.port n).replay.length < 255 →
        1 ≤ (s.port n).units.getD 3 0 → (s.port n).units.length = 4 → ∃ p, Out.packet n p ∈ t.out ∧ p.kind = 3 ∧
          p.kd = natLe 8 s.fabric.ident ++ natLe 2 (s.fld (rCwy 1) 11 0)))) ∧
    (((s.port n).nbr = none ∨ s.now < (s.port n).nbrAt + 300000) → Yields (.neighbourTimeout n) s (fun t => t = s)) ∧
    ((s.port n).nbr ≠ none → (s.port n).nbrAt + 300000 ≤ s.now → Yields (.neighbourTimeout n) s (fun t => (t.port n).nbr = none ∧
      (∀ d, d < 4096 → t.metricVia n d = none) ∧ t.nodeNum = s.nodeNum))) ∧
  (∀ (s : State) (n ident pref num : Nat),
    ((16 ≤ n ∨ s.width n = 0 ∨ 4096 ≤ pref) → Yields (.numberRequest n ident pref) s (fun t => t = s)) ∧
    (n < 16 → s.width n ≠ 0 → pref < 4096 →
      (s.isAssigner = true → (∀ r ∈ s.fabric.nums, r.num = pref → r.ident = ident) → Yields (.numberRequest n ident pref) s (fun t =>
        { num := pref, ident := ident } ∈ t.fabric.nums ∧ (∀ r ∈ t.fabric.nums, r.ident = ident → r.num = pref))) ∧
      (s.isAssigner = true → (∃ r ∈ s.fabric.nums, r.num = pref ∧ r.ident ≠ ident) → ∀ k, k < 4096 →
        (∀ r ∈ s.fabric.nums, r.num = k → r.ident = ident) → (∀ j, j < k → ∃ r ∈ s.fabric.nums, r.num = j ∧ r.ident ≠ ident) →
        Yields (.numberRequest n ident pref) s (fun t => { num := k, ident := ident } ∈ t.fabric.nums)) ∧
      (s.isAssigner = true → (∀ j, j < 4096 → ∃ r ∈ s.fabric.nums, r.num = j ∧ r.ident ≠ ident) →
        Yields (.numberRequest n ident pref) s (fun t => t.fabric.nums = s.fabric.nums)) ∧
      (s.isAssigner = false → Yields (.numberRequest n ident pref) s (fun t => fget 0 t.fabric.back ident = n + 1 ∧
        t.fabric.nums = s.fabric.nums))) ∧
    (num < 4096 → Yields (.numberGrant s.fabric.ident (some num)) s (fun t => t.nodeNum = some num ∧
      (∀ old, s.nodeNum = some old → old ≠ num → t.fld (rCwy 0x21) 31 24 = bump s (rCwy 0x21) 31 24 1 ∧ t.fabric.rxs = []) ∧
      (s.nodeNum = some num → t = s))) ∧
    Yields (.numberGrant s.fabric.ident none) s (fun t => t.nodeNum = s.nodeNum ∧ LogFrame s t []) ∧
    (ident ≠ s.fabric.ident → ∀ g, Yields (.numberGrant ident g) s (fun t => t.nodeNum = s.nodeNum ∧ fget 0 t.fabric.back ident = 0)) ∧
    Yields (.numberHoldExpiry num) s (fun t => t = { s with fabric := { s.fabric with nums := t.fabric.nums } } ∧
      (s.isAssigner = false → t = s) ∧
      (s.isAssigner = true → ∀ r, r ∈ t.fabric.nums ↔
        r ∈ s.fabric.nums ∧ ¬(r.num = num ∧ ∃ a, r.gone = some a ∧ a + 10000000000 ≤ s.now)))) ∧
  (∀ (s : State) (n q : Nat) (es : Bytes),
    ((16 ≤ n ∨ s.width n = 0 ∨ 4 ≤ q ∨ es.length ≠ 1024) → Yields (.routeVector n q es) s (fun t => t = s)) ∧
    (n < 16 → s.width n ≠ 0 → q < 4 → es.length = 1024 → Yields (.routeVector n q es) s (fun t => t.nodeNum = s.nodeNum ∧
      (∀ i, i < 1024 → let m := (es.getD i 0).toNat + (if s.width n = 4 then 1 else 2)
        t.metricVia n (q * 1024 + i) = if 63 ≤ m then none else some m) ∧
      (∀ k d, k < 16 → d < 4096 → (k ≠ n ∨ d / 1024 ≠ q) → t.metricVia k d = s.metricVia k d))) ∧
    (n < 16 → s.width n ≠ 0 → q < 4 → (s.port n).txq = [] → (s.port n).replay.length ≤ 252 → Yields .routeVectorTimer s (fun t =>
      (∃ p, Out.packet n p ∈ t.out ∧ p.kind = 2 ∧ p.kd = natLe 1 q ∧ p.payload.flatten = (List.range 1024).map (fun i =>
        BitVec.ofNat 8 (if n ∈ s.hopPorts (q * 1024 + i) then 63 else s.metric (q * 1024 + i)))) ∧
      t.regs = s.regs ∧ t.fabric.vecs = s.fabric.vecs))) ∧
  (∀ (s : State) (n bad lack : Nat),
    let r := rPort n
    ((16 ≤ n ∨ bad % 16 = 0 ∨ (s.width n = 0 ∧ s.fld r 7 7 = 0)) → Yields (.laneFailure n bad) s (fun t => t = s)) ∧
    (n < 16 → bad % 16 ≠ 0 → s.fld r 7 7 = 1 → Yields (.laneFailure n bad) s (fun t => OnlyRegs s t [r] ∧
      t.fld r 6 3 = s.fld r 6 3 ||| bad % 16)) ∧
    (n < 16 → bad % 16 ≠ 0 → s.width n ≠ 0 → Yields (.laneFailure n bad) s (fun t => t.fld r 6 3 = s.fld r 6 3 ||| bad % 16 ∧ t.width n = 0 ∧
      t.fld r 7 7 = 1 ∧ t.fld r 15 8 = bump s r 15 8 1 ∧ (t.port n).replay = (s.port n).replay)) ∧
    ((16 ≤ n ∨ s.fld r 7 7 = 0) → Yields (.portRetrained n) s (fun t => t = s)) ∧
    (n < 16 → s.fld r 7 7 = 1 →
      let fail := s.fld r 6 3
      let w := if fail = 0 then 4 else if fail % 4 = 0 ∨ fail / 4 = 0 then 2 else 0
      Yields (.portRetrained n) s (fun t => t.fld r 7 7 = 0 ∧ t.fld r 2 0 = w ∧ t.width n = w ∧ t.fld (rSys 4) 3 3 = 1 ∧
        (w = 0 → (t.port n).replay = [] ∧ (t.port n).txq = [] ∧ ∀ d, d < 4096 → t.metricVia n d = none) ∧
        (w ≠ 0 → ∀ p ∈ (s.port n).replay, Out.packet n p ∈ t.out))) ∧
    ((16 ≤ n ∨ s.width n = 0) → Yields (.linkNak n lack) s (fun t => t = s)) ∧
    (n < 16 → s.width n ≠ 0 → lack < 4096 →
      let left := (s.port n).replay.filter (fun p => !decide ((lack + 4096 - p.lseq) % 4096 < 2048))
      Yields (.linkNak n lack) s (fun t => (t.port n).replay = left ∧ t.fld r 31 16 = bump s r 31 16 left.length ∧
        ((left = [] ∨ (s.port n).tries < 15 ∨ left.length < (s.port n).replay.length) → t.width n = s.width n ∧
          t.out = s.out ++ left.map (Out.packet n)) ∧
        (left ≠ [] → left.length = (s.port n).replay.length → 15 ≤ (s.port n).tries → t.width n = 0 ∧ t.fld r 7 7 = 1 ∧ t.out = s.out)))) ∧
  (∀ (s : State) (n : Nat) (pkt : Packet) (crc : Word) (checks : List Word),
    let due := match (s.port n).rx with
      | some r => (r + 1) % 4096
      | none => pkt.lseq
    let sound := crcBytes (packetHeader pkt) = crc.toNat ∧ checks = pkt.payload.map (fun l => BitVec.ofNat 32 (checkBits (leNat l)))
    ((16 ≤ n ∨ s.width n = 0) → Yields (.packetReceive n pkt crc checks) s (fun t => t = s)) ∧
    (n < 16 → s.width n ≠ 0 →
      (crcBytes (packetHeader pkt) ≠ crc.toNat → Yields (.packetReceive n pkt crc checks) s (fun t =>
        t = { s with out := t.out } ∧ ∃ p, t.out = s.out ++ [.packet n p] ∧ p.nak = true ∧ p.lack = (s.port n).rx.getD 0xFFF)) ∧
      (sound → pkt.nak = false → pkt.lseq = due → 2 < pkt.kind → pkt.kind ≠ 3 → pkt.kind ≠ 4 → pkt.kind ≠ 7 → pkt.kind ≠ 0x0D →
        (some (devOf pkt.dest) = s.nodeNum → pkt.eseq = (fget {} s.fabric.rxs (pkt.src * 4 + pkt.fvc)).next → pkt.eseq < 2 ^ 32 →
          (fget {} s.fabric.rxs (pkt.src * 4 + pkt.fvc)).held = [] → Yields (.packetReceive n pkt crc checks) s (fun t =>
            t.fabric.inbox = s.fabric.inbox ++ [pkt] ∧ (t.port n).rx = some pkt.lseq ∧
            (fget {} t.fabric.rxs (pkt.src * 4 + pkt.fvc)).next = (pkt.eseq + 1) % 2 ^ 32 ∧ t.mem = s.mem ∧ t.reqs = s.reqs)) ∧
        (some (devOf pkt.dest) ≠ s.nodeNum → 62 ≤ pkt.hops → Yields (.packetReceive n pkt crc checks) s (fun t =>
          t.fld (rCwy 0x20) 15 0 = bump s (rCwy 0x20) 15 0 1 ∧ t.fabric.inbox = s.fabric.inbox)) ∧
        (∀ k, some (devOf pkt.dest) ≠ s.nodeNum → pkt.hops < 62 → s.routeOf pkt = some k → k ≠ n → k < 16 → pkt.fvc < 4 → (s.port k).txq = [] →
          (s.port k).replay.length < 256 → packetSize pkt ≤ (s.port k).units.getD pkt.fvc 0 →
          Yields (.packetReceive n pkt crc checks) s (fun t => t.fabric.inbox = s.fabric.inbox ∧
            ∃ p, Out.packet k p ∈ t.out ∧ p.hops = pkt.hops + 1 ∧ p.payload = pkt.payload ∧ p.dest = pkt.dest ∧ p.eseq = pkt.eseq))))) ∧
  (∀ (s : State) (dest fvc eseq : Nat),
    let key := dest * 4 + fvc
    let st := fget {} s.fabric.streams key
    let absent := ∀ x ∈ st.sent, x.pkt.eseq ≠ eseq
    (absent → Yields (.endToEndAcknowledgement dest fvc eseq) s (fun t => t = s) ∧ Yields (.e2eRetransmit dest fvc eseq) s (fun t => t = s)) ∧
    (∀ x, st.sent.find? (fun y => y.pkt.eseq == eseq) = some x →
      (st.wait = [] → fvc = 0 → x.pkt.kind = 5 → (s.gate x.pkt.flow).busy = true → 1 < (s.gate x.pkt.flow).left →
        Yields (.endToEndAcknowledgement dest fvc eseq) s (fun t =>
          (fget {} t.fabric.streams key).sent = st.sent.filter (fun y => y.pkt.eseq != eseq) ∧
          (t.gate x.pkt.flow).left = (s.gate x.pkt.flow).left - 1 ∧ t.regs = s.regs ∧ t.out = s.out)) ∧
      (st.wait = [] → x.pkt.kind = 6 → 0x8000 ≤ x.pkt.flow → x.pkt.flow < 0x8040 →
        let g := x.pkt.flow - 0x8000
        (s.gate g).busy = true → Yields (.endToEndAcknowledgement dest fvc eseq) s (fun t => (t.gate g).busy = false ∧
          (t.gate g).fires = (s.gate g).fires + 1 ∧ t.fld (rGate g 6) 23 0 = ((s.gate g).fires + 1) % 2 ^ 24 ∧
          (s.fld (rGate g 6) 26 24 = 2 → t.fld (rGate g 6) 26 24 = 1) ∧ RegsOnly s t [rGate g 6])) ∧
      (s.now < x.at_ + 2000000 → Yields (.e2eRetransmit dest fvc eseq) s (fun t => t = s)) ∧
      (x.at_ + 2000000 ≤ s.now → x.tries < 8 → Yields (.e2eRetransmit dest fvc eseq) s (fun t =>
        t.fld (rCwy 0x20) 31 16 = bump s (rCwy 0x20) 31 16 1 ∧ (fget {} t.fabric.streams key).next = st.next ∧
        (fget {} t.fabric.streams key).sent.length = st.sent.length)) ∧
      (x.at_ + 2000000 ≤ s.now → 8 ≤ x.tries → dest < 4096 → fvc < 4 → Yields (.e2eRetransmit dest fvc eseq) s (fun t =>
        fget {} t.fabric.streams key = { next := (st.next + 64) % 2 ^ 32 } ∧ t.fld (rCwy 0x21) 23 16 = bump s (rCwy 0x21) 23 16 1 ∧
        (fvc = 0 → ∀ g, g < 64 → (s.gate g).busy = true → (s.gate g).adding = false → devOf (s.reg64 (rGate g 2)) = dest →
          t.fld (rGate g 6) 26 24 = 4 ∧ (t.gate g).busy = false) ∧
        (fvc = 2 → ∀ e, s.fabric.mig = some (e, dest) → t.fabric.mig = none ∧ t.regN (rCwy 0x71) = 8)))) ∧
    (∀ flow,
      (fvc = 0 → flow < 64 → (s.gate flow).busy = true → Yields (.refusal dest fvc flow) s (fun t => (t.gate flow).busy = false ∧
        t.fld (rGate flow 6) 26 24 = 3 ∧ RegsOnly s t [rGate flow 6] ∧ t.mem = s.mem)) ∧
      (fvc = 1 → flow < 64 → (s.gate flow).busy = true → Yields (.refusal dest fvc (0x8000 + flow)) s (fun t => (t.gate flow).busy = false ∧
        t.fld (rGate flow 6) 26 24 = 3)) ∧
      (fvc = 2 → 4 ≤ flow → flow ≤ 7 → ∀ e, s.fabric.mig = some (e, dest) → Yields (.refusal dest fvc flow) s (fun t =>
        t.fabric.mig = none ∧ t.regN (rCwy 0x71) = flow ∧ RegsOnly s t [rCwy 0x71]))) ∧
    (let x := s.port dest
     let late := x.txq.find? (fun p => some p.1.src != s.nodeNum && decide (2 < p.1.kind) && !s.canGo dest p.1)
     (late = none → Yields (.transitCreditTimeout dest) s (fun t => t = s)) ∧
     (∀ p a, late = some (p, a) → s.now ≤ a + 1000000 → Yields (.transitCreditTimeout dest) s (fun t => t = s)) ∧
     (∀ p a, late = some (p, a) → a + 1000000 < s.now → Yields (.transitCreditTimeout dest) s (fun t =>
       (t.port dest).txq = x.txq.erase (p, a) ∧ t.fld (rCwy 0x20) 15 0 = bump s (rCwy 0x20) 15 0 1 ∧ t.out = s.out))))
  ) ∧ (
  ∀ (s : State) (n : Nat) (p : Packet) (a : Nat), s.nextOut n = some (p, a) →
    let x := s.port n
    let ready (v : Nat) : Prop := ∃ y ∈ x.txq, s.canGo n y.1 = true ∧ y.1.fvc = v ∧ 2 < y.1.kind
    let share (v : Nat) : Nat := x.spent.getD v 0 * 4 / (if v = 0 then 4 else 1)
    (p, a) ∈ x.txq ∧ s.canGo n p = true ∧
    ((∃ y ∈ x.txq, s.canGo n y.1 = true ∧ y.1.kind ≤ 2) → p.kind ≤ 2) ∧
    (2 < p.kind → (∀ y ∈ x.txq, s.canGo n y.1 = true → 2 < y.1.kind) →
      (p.fvc = 1 → (ready 0 ∨ ready 2 ∨ ready 3) → 4 * x.spent.getD 1 0 ≤ x.spent.sum) ∧
      (p.fvc ≠ 1 → ready 1 → x.spent.sum < 4 * x.spent.getD 1 0) ∧
      (p.fvc ≠ 1 → ∀ v, (v = 0 ∨ v = 2 ∨ v = 3) → ready v → share p.fvc ≤ share v))
  )

/-! ## What the causeway carries -/

/-- R405 to R412: inbound writes and counter additions, gates, whose chunks are read as background claims and sent 16 lines a packet, forwarded entries, words and voids, drafts across devices, migrations.
Where the rules leave a point open, the model's choice stands: log entries 44, 49, 50, 51, 52, 53. -/
def Obligations.FabricTraffic : Prop :=
  let refused (s t : State) (n : Nat) : Prop := t.fld (rCwy 0x21) 15 0 = Nat.min (s.fld (rCwy 0x21) 15 0 + n) 65535 ∧ t.mem = s.mem ∧
    t.cores = s.cores ∧ t.reqs = s.reqs ∧ t.sync = s.sync ∧ t.parts = s.parts
  let far (s : State) (src : Nat) : Prop := s.nodeNum.isSome = true ∧ s.nodeNum ≠ some src
  let onStream (t : State) (key : Nat) (p : Packet) : Prop :=
    let st := fget {} t.fabric.streams key
    p ∈ st.sent.map (·.pkt) ∨ p ∈ st.wait
  (∀ (s : State) (pkt : Packet),
    let a := pkt.dest % 2 ^ 48
    let c := waCore a
    let n := 64 * pkt.payload.length
    ((pkt.kind ≠ 5 ∨ pkt ∉ s.fabric.inbox) → Yields (.dataWrite pkt) s (fun t => t = s)) ∧
    (pkt.kind = 5 → pkt ∈ s.fabric.inbox → far s pkt.src →
      ((∀ p, s.partOf c = some p → s.admits p pkt.src = false) → Yields (.dataWrite pkt) s (fun t => refused s t 1 ∧
        t.fabric.inbox = s.fabric.inbox.erase pkt)) ∧
      (∀ p, s.partOf c = some p → s.admits p pkt.src = true →
        ((waSpace a ≠ spCabinet ∨ waOff a % 64 ≠ 0 ∨ spaceSize spCabinet < waOff a + n) → Faults (.dataWrite pkt) s .address) ∧
        (waSpace a = spCabinet → s.coreOk c = true → waOff a % 64 = 0 → waOff a + n ≤ spaceSize spCabinet → 0 < n →
          s.protected_ c (waOff a) n = true → Faults (.dataWrite pkt) s .contract) ∧
        (waSpace a = spCabinet → s.coreOk c = true → waOff a % 64 = 0 → waOff a + n ≤ spaceSize spCabinet →
          (n = 0 ∨ s.protected_ c (waOff a) n = false) → Yields (.dataWrite pkt) s (fun t =>
            CoresOnly s t [c] ∧ (t.core c).claims.length = (s.core c).claims.length + (pkt.payload.flatten.length + 63) / 64 ∧
            t.fabric.inbox = s.fabric.inbox.erase pkt ∧ t.regs = s.regs ∧ t.mem = s.mem)))) ∧
    (let p := s.countPart pkt
     let ctr := pkN pkt 1 2
     ((pkt.kind ≠ 6 ∨ pkt ∉ s.fabric.inbox ∨ s.schUp = false ∨ s.countWaits p = true) → Yields (.counterAdd pkt) s (fun t => t = s)) ∧
     (pkt.kind = 6 → pkt ∈ s.fabric.inbox → s.schUp = true → s.countWaits p = false → far s pkt.src →
       (s.admits p pkt.src = true → s.admitsCtr p ctr = true → Yields (.counterAdd pkt) s (fun t =>
         fget 0 t.sync ctr = (fget 0 s.sync ctr + pkN pkt 3 4) % 2 ^ 32 ∧ (∀ k, k ≠ ctr → fget 0 t.sync k = fget 0 s.sync k) ∧
         t.fabric.inbox = s.fabric.inbox.erase pkt ∧ t.regs = s.regs ∧ t.mem = s.mem)) ∧
       ((s.admits p pkt.src = false ∨ s.admitsCtr p ctr = false) → Yields (.counterAdd pkt) s (fun t => refused s t 1))))) ∧
  (∀ (s : State) (g : Nat),
    let cfg := s.regN (rGate g 4)
    let len := bits cfg 12 0
    let slots := bits cfg 16 13
    let x := s.gate g
    let trig := fget 0 s.sync (s.fld (rGate g 5) 15 0)
    let st := s.fld (rGate g 6) 26 24
    let ready := g < 64 ∧ bits cfg 20 20 = 1 ∧ slots ≠ 0 ∧ x.busy = false ∧ s.nodeNum.isSome = true ∧ (st = 0 ∨ st = 1 ∨ st = 5) ∧
      counterGe trig (x.fires + 1) = true
    let q := s.part (bits cfg 19 17)
    let step := 64 * len * (x.fires % slots)
    let a := s.reloc q (s.reg64 (rGate g 0) % 2 ^ 48)
    let dst := s.reg64 (rGate g 2) + step
    let ahead := slots < (trig + 2 ^ 32 - x.fires % 2 ^ 32) % 2 ^ 32
    (¬ ready → Yields (.gateFire g) s (fun t => t = s)) ∧
    (ready → far s (devOf (s.reg64 (rGate g 2))) → len = 0 → Yields (.gateFire g) s (fun t => t.gate g = { fires := x.fires, busy := true, adding := true, dst := dst } ∧
      t.fld (rGate g 6) 26 24 = (if ahead then 5 else 2) ∧ t.mem = s.mem ∧
      ∃ p, onStream t (devOf (s.reg64 (rGate g 2)) * 4 + 1) p ∧ p.kind = 6 ∧ p.flow = 0x8000 + g ∧ pkN p 1 2 = s.fld (rGate g 5) 31 16 ∧ pkN p 3 4 = 1)) ∧
    (ready → len ≠ 0 →
      (q.loaded = false → Faults (.gateFire g) s .address) ∧
      (q.loaded = true → q.covers s.gridCols (cIsle (waCore a)) = true → s.coreOk (waCore a) = true → waSpace a = spCabinet → waOff a % 64 = 0 →
        waOff a + step + 64 * len ≤ spaceSize spCabinet →
        Yields (.gateFire g) s (fun t =>
          t.gate g = { fires := x.fires, busy := true, left := (len + 15) / 16, len := len, dst := dst } ∧
          t.fld (rGate g 6) 26 24 = (if ahead then 5 else 2) ∧ t.mem = s.mem ∧ CoresOnly s t [waCore a] ∧
          t.fabric.streams = s.fabric.streams ∧ t.out = s.out ∧
          (t.core (waCore a)).claims.length = (s.core (waCore a)).claims.length + len ∧
          ∀ i, i < len → { prio := 5, off := waOff a + step + 64 * i, kind := .gate g } ∈ (t.core (waCore a)).claims)))) ∧
  (∀ (s : State) (core : CoreId) (k : Claim) (rest : List Claim) (g : Nat),
    let x := s.gate g
    let line := s.rdLine core spCabinet k.off
    let at_ := (x.dst + 64 * (x.got - x.data.length)) % 2 ^ 60
    s.refreshing core = false → s.fetchWaits core = false → (s.core core).claims = k :: rest → k.kind = .gate g → k.off % 64 = 0 →
    s.isBad core spCabinet k.off = false → x.busy = true → x.got < x.len →
      (x.data.length ≠ 15 → x.got + 1 ≠ x.len → Yields (.backgroundClaim core 0) s (fun t =>
        t.gate g = { x with got := x.got + 1, data := x.data ++ [line] } ∧ (t.core core).claims = rest ∧ t.mem = s.mem ∧ t.out = s.out)) ∧
      ((x.data.length = 15 ∨ x.got + 1 = x.len) → far s (devOf at_) → Yields (.backgroundClaim core 0) s (fun t =>
        t.gate g = { x with got := x.got + 1, data := [] } ∧ (t.core core).claims = rest ∧ t.mem = s.mem ∧
        ∃ p, onStream t (devOf at_ * 4) p ∧ p.kind = 5 ∧ p.flow = g ∧ p.fvc = 0 ∧ p.dest = at_ ∧ p.payload = x.data ++ [line]))) ∧
  (∀ (s : State) (src p lane beat e : Nat) (entries : List Bytes) (word : Bytes),
    (let m := s.message src 0x08 (natLe 1 p ++ natLe 8 beat) entries.flatten
     ((m = none ∨ (s.admits p src = true ∧ (s.part p).lanes ≠ entries.length)) → Yields (.forwardedLaneEntries src p beat entries) s (fun t => t = s)) ∧
     (∀ ps, m = some ps → far s src → s.admits p src = false → Yields (.forwardedLaneEntries src p beat entries) s (fun t => refused s t ps.length)) ∧
     (∀ ps, m = some ps → s.admits p src = true → (s.part p).lanes = entries.length → Yields (.forwardedLaneEntries src p beat entries) s (fun t =>
       fget [] (t.part p).fwd beat = entries ∧ (t.part p).fwdAt = s.now ∧ PartsOnly s t [p] ∧ t.mem = s.mem ∧
       ∀ b, b ≠ beat → fget [] (t.part p).fwd b = fget [] (s.part p).fwd b))) ∧
    (let m := s.message src 0x09 (natLe 1 p ++ natLe 1 lane) word
     (m = none → Yields (.forwardedLaneStateWord src p lane word) s (fun t => t = s)) ∧
     (∀ ps, m = some ps → far s src → s.admits p src = false → Yields (.forwardedLaneStateWord src p lane word) s (fun t => refused s t ps.length)) ∧
     (∀ ps, m = some ps → s.admits p src = true → Yields (.forwardedLaneStateWord src p lane word) s (fun t =>
       t.part p = { s.part p with words := (s.part p).words ++ [(lane, word)] } ∧ PartsOnly s t [p] ∧ t.mem = s.mem))) ∧
    (let m := s.fabric.inbox.find? (fun k => k.src == src && k.kind == 0x0A && k.kd == natLe 1 p ++ natLe 2 e)
     (m = none → Yields (.forwardedVoid src p e) s (fun t => t = s)) ∧
     (∀ k, m = some k → far s src → s.admits p src = false → Yields (.forwardedVoid src p e) s (fun t => refused s t 1)) ∧
     (∀ k, m = some k → s.admits p src = true → Yields (.forwardedVoid src p e) s (fun t => PartsOnly s t [p] ∧ t.mem = s.mem ∧
       (t.part p).history = (s.part p).history.map (fun l => l.map (blankEnt e)) ∧
       (∀ c ∈ s.partCores (s.part p), (s.part p).loaded = true → ∃ l ∈ t.net, l.vc = 3 ∧ l.msg = .vc3 (.void c e))))) ∧
    (let late := s.isFollower p = true ∧ (s.part p).loaded = true ∧ (s.part p).started = true ∧ (s.part p).fwdAt + 100000000 ≤ s.now
     (¬ late → Yields (.followerEntryTimeout p) s (fun t => t = s)) ∧
     (late → Yields (.followerEntryTimeout p) s (fun t => (t.part p).fwdAt = s.now ∧ LogFrame { s with parts := t.parts } t [] ∧ PartsOnly s t [p] ∧
       t.seq = (s.seq + 1) % 2 ^ 32)))) ∧
  (∀ (s : State) (src : Nat) (msg : ProxyMsg) (ps : List Packet),
    ((s.message src 0x0C [] (linesOf (proxyBytes msg)).flatten = none ∨ s.schUp = false) → Yields (.proxyMessage src msg) s (fun t => t = s)) ∧
    (s.message src 0x0C [] (linesOf (proxyBytes msg)).flatten = some ps → s.schUp = true → far s src →
      (∀ p prompt samp submit, msg = .create p prompt samp submit →
        (s.admits p src = false → Yields (.proxyMessage src msg) s (fun t => refused s t ps.length)) ∧
        (s.admits p src = true → s.draftReq src p prompt samp.flatten submit = none → Yields (.proxyMessage src msg) s (fun t => refused s t ps.length)) ∧
        (∀ r, s.admits p src = true → s.draftReq src p prompt samp.flatten submit = some r → s.freeFrom 0 = none →
          Yields (.proxyMessage src msg) s (fun t => t = s)) ∧
        (∀ r e, s.admits p src = true → s.draftReq src p prompt samp.flatten submit = some r → s.freeFrom 0 = some e →
          Yields (.proxyMessage src msg) s (fun t => t.req e = { r with state := 1 } ∧ r.draft = true ∧ r.proxy = some src ∧ ReqsOnly s t [e]))) ∧
      (∀ e tok, msg = .draftToken e tok → s.admits (s.req e).part src = true → (s.req e).spec = true → (s.req e).proxy = some src →
        (s.req e).state ≠ 0 → Yields (.proxyMessage src msg) s (fun t => t.req e = { s.req e with drafts := (s.req e).drafts ++ [tok] } ∧
          ReqsOnly s t [e] ∧ t.mem = s.mem)) ∧
      (∀ e n tok d, msg = .roundResult e n tok → s.remoteDraft src e = some d → s.admits (s.req d).part src = true →
        (n ≠ 0 → Yields (.proxyMessage src msg) s (fun t => ReqsOnly s t [d] ∧ (t.req d).pos = (s.req d).pos + n - (s.req d).produced ∧
          (t.req d).lastTok = tok ∧ (t.req d).produced = 0 ∧ (t.req d).rounds = (s.req d).rounds + 1)) ∧
        (n = 0 → ((s.req d).state = 2 ∨ (s.req d).state = 3) → Yields (.proxyMessage src msg) s (fun t => (t.req d).state = 5 ∧
          (t.req d).status = 3))))) ∧
  (∀ (s : State) (e dest : Nat) (area : Option Bytes),
    e < 8192 → dest < 4096 → (s.fabric.mig = none ∨ s.fabric.mig = some (e, dest)) →
    let r := s.req e
    let ended (t : State) (k : Nat) : Prop := t.fabric.mig = none ∧ t.regN (rCwy 0x71) = k ∧ t.reqs = s.reqs ∧ t.out = s.out ∧
      RegsOnly s t [rCwy 0x70, rCwy 0x71]
    s.schUp = true → s.migSent dest = false →
    ((r.state ≠ 4 ∨ r.spec = true ∨ r.draft = true) → Yields (.migrationGo e dest area) s (fun t => ended t 3)) ∧
    (r.state = 4 → r.spec = false → r.draft = false →
      (s.dma r.func area = none → Yields (.migrationGo e dest area) s (fun t => ended t 9)) ∧
      (∀ bs, s.dma r.func area = some bs →
        (recN bs 0 4 ≠ 1 → Yields (.migrationGo e dest area) s (fun t => ended t 3)) ∧
        (recN bs 0 4 = 1 → s.nodeNum = none → Yields (.migrationGo e dest area) s (fun t => ended t 8)) ∧
        (recN bs 0 4 = 1 → far s dest → (fget {} s.fabric.streams (dest * 4 + 2)).sent = [] → (fget {} s.fabric.streams (dest * 4 + 2)).wait = [] →
          Yields (.migrationGo e dest area) s (fun t => t.fabric.mig = some (e, dest) ∧ t.reqs = s.reqs ∧
            (s.fabric.mig = none → t.regN (rCwy 0x71) = 1) ∧
            let st := fget {} t.fabric.streams (dest * 4 + 2)
            ((st.sent.map (·.pkt) ++ st.wait).map (fun p => p.payload.flatten)).flatten = (linesOf (s.package e bs)).flatten))))) ∧
  (∀ (s : State) (src : Nat) (pk : Bytes),
    let m := s.message src 0x0B [] pk
    let cfg := s.regN (rCwy 0x74)
    let p := bits cfg 10 8
    let q := s.part p
    (m = none → Yields (.migration src pk) s (fun t => t = s)) ∧
    (∀ ps, m = some ps →
      ((s.schUp = false ∨ pk.length < recN pk 48 8) → Yields (.migration src pk) s (fun t => t = s)) ∧
      (s.schUp = true → recN pk 48 8 ≤ pk.length → (recN pk 0 4 ≠ 0x314D4C51 ∨ recN pk 48 8 < 832 ∨ recN pk 48 8 ≠ pk.length) →
        Faults (.migration src pk) s .record) ∧
      (s.schUp = true → recN pk 0 4 = 0x314D4C51 → recN pk 48 8 = pk.length → 832 ≤ pk.length → far s src →
        let same := q.loaded = true ∧ q.liveValid = true ∧ (q.digest ++ List.replicate 32 0).take 32 = (pk.drop 16).take 32
        (s.landSlot = none → Yields (.migration src pk) s (fun t => refused s t ps.length)) ∧
        (∀ slot, s.landSlot = some slot →
          (s.admits p src = false → Yields (.migration src pk) s (fun t => refused s t ps.length)) ∧
          (s.admits p src = true → ¬ same → Yields (.migration src pk) s (fun t => refused s t ps.length)) ∧
          (s.admits p src = true → same → s.freeFrom 0 = none → Yields (.migration src pk) s (fun t => refused s t ps.length)) ∧
          (∀ e, s.admits p src = true → same → s.freeFrom 0 = some e →
            (1024 * bits cfg 31 16 < pk.length → Faults (.migration src pk) s .contract) ∧
            (pk.length ≤ 1024 * bits cfg 31 16 →
              let addr := s.reg64 (rCwy 0x72) / 4096 * 4096 + 1024 * bits cfg 31 16 * slot
              Yields (.migration src pk) s (fun t => Out.hostWrite 0 addr pk ∈ t.out ∧ ReqsOnly s t [e] ∧ (t.req e).state = 4 ∧
                (t.req e).part = p ∧ (t.req e).func = 0 ∧ (t.req e).cring = bits cfg 14 11 ∧ (t.req e).parkAddr = addr + 768 ∧
                (t.req e).land = some slot ∧ (t.req e).tExpire = (s.now + 1000 * recN pk 8 8) % 2 ^ 64 ∧
                (t.req e).pos = recN pk 76 4 % 2 ^ 20 ∧ t.mem = s.mem)))))))

/-! ## The block -/

/-- A step with a command at the front of the queue is that command's meaning on the state with the queue's rest. -/
def Obligations.StepRunsTheFrontCommand : Prop :=
  ∀ (c : Instr) (s : State) (rest : List Instr), step { s with pending := c :: rest } = exec c { s with pending := rest }

/-- R29, R198, R279, R281, R283, R371: with no command waiting a step is one half of a core cycle (the model's choice, log entry 3): a device that is Off
stays as it is. In the first half the count of cycles rises by one and the score cycles of the cycle before end; where no core was in one, nothing
else changes but what the network, the root's levels and the queue hold. In the second half every core that runs begins its next score cycle,
a root that runs advances its score time by one, one that does not stands still, and a cycle with RUN low is counted as stalled.
Where the rules leave a point open, the model's choice stands: log entries 3, 18. -/
def Obligations.IdleStepsMakeOneCycle : Prop :=
  ∀ (s : State), s.pending = [] →
    (s.devState = 0 → step s = .next s) ∧
    (s.devState ≠ 0 → s.phase = false → ∃ t, step s = .next t ∧ t.cyc = s.cyc + 1 ∧ t.phase = true ∧ t.fresh = [] ∧
      t.reqs = s.reqs ∧ t.rings = s.rings ∧ t.sync = s.sync ∧
      (∀ x ∈ s.beatCores, (t.core x.2).live = false) ∧
      (∀ p, p < 8 → (t.part p).score = (s.part p).score ∧ (t.part p).total = (s.part p).total ∧ (t.part p).beat = (s.part p).beat) ∧
      ((∀ x ∈ s.beatCores, (s.core x.2).live = false) →
        t = { s with cyc := t.cyc, phase := t.phase, fresh := t.fresh, net := t.net, strait := t.strait, parts := t.parts, regs := t.regs
                     pending := t.pending } ∧
        ∀ p, p < 8 → (s.part p).loaded = false → (∀ l ∈ s.net, s.partOf l.here ≠ some p) → t.part p = s.part p)) ∧
    (s.devState ≠ 0 → s.phase = true → ∃ t, step s = .next t ∧ t.cyc = s.cyc ∧ t.phase = false ∧ t.mem = s.mem ∧ t.reqs = s.reqs ∧
      t.arrs = s.arrs ∧ t.sync = s.sync ∧ t.out = s.out ∧ t.fabric = s.fabric ∧ t.rings = s.rings ∧
      (let run := (s.beatCores.filter (fun x => s.coreRuns x.1 x.2)).map Prod.snd
       (∀ c, c ∉ run → (t.core c).clk = (s.core c).clk ∧ (t.core c).live = (s.core c).live) ∧
       (run.Nodup → ∀ c ∈ run, (t.core c).clk = (s.core c).clk + 1 ∧ (t.core c).live = true)) ∧
      ∀ p, p < 8 → (s.part p).loaded = true →
        ((s.part p).rootRuns = true → (t.part p).score = (s.part p).score + 1 ∧ (t.part p).total = (s.part p).total + 1) ∧
        ((s.part p).rootRuns = false → (t.part p).score = (s.part p).score ∧ (t.part p).total = (s.part p).total) ∧
        ((s.part p).run = false → (s.part p).halted = false → (s.part p).held = false →
          (t.part p).stallBeat = (s.part p).stallBeat + 1) ∧
        (t.part p).beat = (s.part p).beat ∧ (t.part p).groups = (s.part p).groups ∧ (t.part p).liveSlot = (s.part p).liveSlot)

/-- The state after power-on (Tables 2-6, 13-10, 14-5, 15-9, 16-9, 17-8, 17-12, 18-7): the fields whose reset values the tables of the spec
give, nothing in memory, no partition, no request, no command waiting.
Where the rules leave a point open, the model's choice stands: log entries 1, 4, 61, 62, 63. -/
def Obligations.ResetValues : Prop :=
  let s := State.reset
  s.devState = 1 ∧ s.fld (rPwr 0) 14 0 = 25000 ∧ s.fld (rPwr 1) 19 15 = 18 ∧ (∀ i, i < 80 → s.fld (rPwr (0x100 + i)) 9 0 = 360 ∧ s.fld (rPwr (0x100 + i)) 25 16 = 360) ∧
  s.fld (rThm 8) 0 0 = 1 ∧ s.fld (rThm 8) 19 8 = 0x338 ∧ s.fld (rSys 0x40) 0 0 = 1 ∧ s.fld (rSys 0x40) 1 1 = 1 ∧
  s.fld (rHost 0 4) 6 0 = 2 ∧ (∀ n, n < 16 → s.fld (rPort n) 2 0 = 0) ∧ s.nodeNum = none ∧ s.reg (rTel 8) = 0 ∧ s.reg (rCwy 1) = 0 ∧
  (∀ i n, i < 80 → n < 24 → s.fld (rSensor i n) 13 12 = 0 ∧ s.senState i n = 0) ∧
  (∀ i n, i < 80 → 32 ≤ n → n < 36 → s.senState i n = 2 ∧ s.senMapped i n = 63) ∧
  (∀ k, k / 64 / 169 < 80 → k % 64 < 50 → s.arrState k = 5) ∧ (∀ p, (s.part p).loaded = false) ∧ (∀ e, (s.req e).state = 0) ∧ (∀ k, fget 0 s.sync k = 0) ∧ (∀ a, mget s.mem a = memDefault) ∧
  Memory.wf s.mem = true ∧ s.linkUp = false ∧ s.pending = []

/-- Every step, with or without a command, keeps the canonical form of memory.
Where the rules leave a point open, the model's choice stands: log entry 1. -/
def Obligations.StepKeepsMemoryCanonical : Prop :=
  ∀ s t : State, Memory.wf s.mem = true → step s = .next t → Memory.wf t.mem = true

/-- R219 to R222, Tables 8-1 and 8-4 to 8-9: a well-formed score instruction encoded into its slot of a bundle decodes to itself, with every operand
at every value that the encoding admits; what its execution observes is not part of the encoding. -/
def Obligations.ScoreSlotsRoundTrip : Prop :=
  ∀ (i : Instr) (sl : Slot) (w : Nat), i.wf = true → encodeSlot i = some (sl, w) →
    w < 2 ^ sl.at_.2 ∧ decodeSlot (scoreCore i) sl w = some (some (bareInstr i))

/-! ## The hardware thermal duty -/

/-- R468: when an isle enters the throttle state its duty becomes at least 4; every 1 ms in that state at 105.0 degrees or more it rises by 1, up to 16;
below 105.0 degrees in that state it holds; every 1 ms after the state is left it falls by 1, down to 0. -/
def Obligations.HardwareThermalDuty : Prop :=
  ∀ (s : State) (isle : Nat),
    let r := rThm (0x100 + isle)
    let h := s.fld r 19 15
    let temp := codeTemp (s.fld r 11 0)
    (∀ rd : List Int, s.devState ≠ 10 → isle < 80 → Yields (.sensorSample isle rd) s (fun t =>
      t.fld r 19 15 = if s.fld r 13 13 = 0 ∧ t.fld r 13 13 = 1 then Nat.max 4 h else h)) ∧
    (80 ≤ isle → Yields (.hwDutyTick isle) s (fun t => t = s)) ∧
    (isle < 80 → h ≤ 16 → Yields (.hwDutyTick isle) s (fun t => t = { s with regs := t.regs, heat := t.heat } ∧ RegsOnly s t [r] ∧
      (s.fld r 13 13 = 1 → 840 ≤ temp → t.fld r 19 15 = Nat.min 16 (h + 1)) ∧ (s.fld r 13 13 = 1 → temp < 840 → t.fld r 19 15 = h) ∧
      (s.fld r 13 13 = 0 → t.fld r 19 15 = h - 1) ∧ (∀ i, i ≠ isle → t.heatOf i = s.heatOf i) ∧
      (t.fld r 19 15 = 16 → (s.heatOf isle).fullAt = none → (t.heatOf isle).fullAt = some s.now) ∧
      (t.fld r 19 15 ≠ 16 → (t.heatOf isle).fullAt = none)))
end

