-- ==== Sys2Proof/Laws/State.lean ====
section
/-! SUPPORT. What each primitive update of the state leaves alone: one lemma for each update and field. -/
namespace Sys2Proof.Machine

variable (s : State)

/-! `setReg` changes `regs` only. -/
@[simp] theorem State.setReg_cyc (r : Nat) (v : Word) : (s.setReg r v).cyc = s.cyc := rfl
@[simp] theorem State.setReg_startCyc (r : Nat) (v : Word) : (s.setReg r v).startCyc = s.startCyc := rfl
@[simp] theorem State.setReg_phase (r : Nat) (v : Word) : (s.setReg r v).phase = s.phase := rfl
@[simp] theorem State.setReg_fresh (r : Nat) (v : Word) : (s.setReg r v).fresh = s.fresh := rfl
@[simp] theorem State.setReg_sel (r : Nat) (v : Word) : (s.setReg r v).sel = s.sel := rfl
@[simp] theorem State.setReg_holdHi (r : Nat) (v : Word) : (s.setReg r v).holdHi = s.holdHi := rfl
@[simp] theorem State.setReg_heldLo (r : Nat) (v : Word) : (s.setReg r v).heldLo = s.heldLo := rfl
@[simp] theorem State.setReg_mem (r : Nat) (v : Word) : (s.setReg r v).mem = s.mem := rfl
@[simp] theorem State.setReg_cores (r : Nat) (v : Word) : (s.setReg r v).cores = s.cores := rfl
@[simp] theorem State.setReg_arrs (r : Nat) (v : Word) : (s.setReg r v).arrs = s.arrs := rfl
@[simp] theorem State.setReg_parts (r : Nat) (v : Word) : (s.setReg r v).parts = s.parts := rfl
@[simp] theorem State.setReg_loads (r : Nat) (v : Word) : (s.setReg r v).loads = s.loads := rfl
@[simp] theorem State.setReg_reqs (r : Nat) (v : Word) : (s.setReg r v).reqs = s.reqs := rfl
@[simp] theorem State.setReg_isleMap (r : Nat) (v : Word) : (s.setReg r v).isleMap = s.isleMap := rfl
@[simp] theorem State.setReg_coreMap (r : Nat) (v : Word) : (s.setReg r v).coreMap = s.coreMap := rfl
@[simp] theorem State.setReg_arrMap (r : Nat) (v : Word) : (s.setReg r v).arrMap = s.arrMap := rfl
@[simp] theorem State.setReg_siteFail (r : Nat) (v : Word) : (s.setReg r v).siteFail = s.siteFail := rfl
@[simp] theorem State.setReg_siteCand (r : Nat) (v : Word) : (s.setReg r v).siteCand = s.siteCand := rfl
@[simp] theorem State.setReg_isleFail (r : Nat) (v : Word) : (s.setReg r v).isleFail = s.isleFail := rfl
@[simp] theorem State.setReg_edgeFail (r : Nat) (v : Word) : (s.setReg r v).edgeFail = s.edgeFail := rfl
@[simp] theorem State.setReg_repairQ (r : Nat) (v : Word) : (s.setReg r v).repairQ = s.repairQ := rfl
@[simp] theorem State.setReg_isleDue (r : Nat) (v : Word) : (s.setReg r v).isleDue = s.isleDue := rfl
@[simp] theorem State.setReg_resup (r : Nat) (v : Word) : (s.setReg r v).resup = s.resup := rfl
@[simp] theorem State.setReg_repRecs (r : Nat) (v : Word) : (s.setReg r v).repRecs = s.repRecs := rfl
@[simp] theorem State.setReg_repRoom (r : Nat) (v : Word) : (s.setReg r v).repRoom = s.repRoom := rfl
@[simp] theorem State.setReg_pw (r : Nat) (v : Word) : (s.setReg r v).pw = s.pw := rfl
@[simp] theorem State.setReg_heat (r : Nat) (v : Word) : (s.setReg r v).heat = s.heat := rfl
@[simp] theorem State.setReg_rings (r : Nat) (v : Word) : (s.setReg r v).rings = s.rings := rfl
@[simp] theorem State.setReg_d3 (r : Nat) (v : Word) : (s.setReg r v).d3 = s.d3 := rfl
@[simp] theorem State.setReg_pollFrom (r : Nat) (v : Word) : (s.setReg r v).pollFrom = s.pollFrom := rfl
@[simp] theorem State.setReg_linkUp (r : Nat) (v : Word) : (s.setReg r v).linkUp = s.linkUp := rfl
@[simp] theorem State.setReg_subq (r : Nat) (v : Word) : (s.setReg r v).subq = s.subq := rfl
@[simp] theorem State.setReg_fabric (r : Nat) (v : Word) : (s.setReg r v).fabric = s.fabric := rfl
@[simp] theorem State.setReg_sync (r : Nat) (v : Word) : (s.setReg r v).sync = s.sync := rfl
@[simp] theorem State.setReg_net (r : Nat) (v : Word) : (s.setReg r v).net = s.net := rfl
@[simp] theorem State.setReg_flows (r : Nat) (v : Word) : (s.setReg r v).flows = s.flows := rfl
@[simp] theorem State.setReg_netId (r : Nat) (v : Word) : (s.setReg r v).netId = s.netId := rfl
@[simp] theorem State.setReg_links (r : Nat) (v : Word) : (s.setReg r v).links = s.links := rfl
@[simp] theorem State.setReg_strait (r : Nat) (v : Word) : (s.setReg r v).strait = s.strait := rfl
@[simp] theorem State.setReg_chMap (r : Nat) (v : Word) : (s.setReg r v).chMap = s.chMap := rfl
@[simp] theorem State.setReg_stag (r : Nat) (v : Word) : (s.setReg r v).stag = s.stag := rfl
@[simp] theorem State.setReg_central (r : Nat) (v : Word) : (s.setReg r v).central = s.central := rfl
@[simp] theorem State.setReg_sideQ (r : Nat) (v : Word) : (s.setReg r v).sideQ = s.sideQ := rfl
@[simp] theorem State.setReg_alarms (r : Nat) (v : Word) : (s.setReg r v).alarms = s.alarms := rfl
@[simp] theorem State.setReg_seq (r : Nat) (v : Word) : (s.setReg r v).seq = s.seq := rfl
@[simp] theorem State.setReg_cmdKey (r : Nat) (v : Word) : (s.setReg r v).cmdKey = s.cmdKey := rfl
@[simp] theorem State.setReg_secRec (r : Nat) (v : Word) : (s.setReg r v).secRec = s.secRec := rfl
@[simp] theorem State.setReg_tagFails (r : Nat) (v : Word) : (s.setReg r v).tagFails = s.tagFails := rfl
@[simp] theorem State.setReg_lockAt (r : Nat) (v : Word) : (s.setReg r v).lockAt = s.lockAt := rfl
@[simp] theorem State.setReg_warnAt (r : Nat) (v : Word) : (s.setReg r v).warnAt = s.warnAt := rfl
@[simp] theorem State.setReg_meas (r : Nat) (v : Word) : (s.setReg r v).meas = s.meas := rfl
@[simp] theorem State.setReg_debugCount (r : Nat) (v : Word) : (s.setReg r v).debugCount = s.debugCount := rfl
@[simp] theorem State.setReg_fwu (r : Nat) (v : Word) : (s.setReg r v).fwu = s.fwu := rfl
@[simp] theorem State.setReg_restarts (r : Nat) (v : Word) : (s.setReg r v).restarts = s.restarts := rfl
@[simp] theorem State.setReg_tx (r : Nat) (v : Word) : (s.setReg r v).tx = s.tx := rfl
@[simp] theorem State.setReg_chain (r : Nat) (v : Word) : (s.setReg r v).chain = s.chain := rfl
@[simp] theorem State.setReg_spdm (r : Nat) (v : Word) : (s.setReg r v).spdm = s.spdm := rfl
@[simp] theorem State.setReg_sess (r : Nat) (v : Word) : (s.setReg r v).sess = s.sess := rfl
@[simp] theorem State.setReg_ide (r : Nat) (v : Word) : (s.setReg r v).ide = s.ide := rfl
@[simp] theorem State.setReg_ideKeys (r : Nat) (v : Word) : (s.setReg r v).ideKeys = s.ideKeys := rfl
@[simp] theorem State.setReg_eid (r : Nat) (v : Word) : (s.setReg r v).eid = s.eid := rfl
@[simp] theorem State.setReg_icAt (r : Nat) (v : Word) : (s.setReg r v).icAt = s.icAt := rfl
@[simp] theorem State.setReg_out (r : Nat) (v : Word) : (s.setReg r v).out = s.out := rfl
@[simp] theorem State.setReg_free (r : Nat) (v : Word) : (s.setReg r v).free = s.free := rfl
@[simp] theorem State.setReg_accEpoch (r : Nat) (v : Word) : (s.setReg r v).accEpoch = s.accEpoch := rfl
@[simp] theorem State.setReg_pending (r : Nat) (v : Word) : (s.setReg r v).pending = s.pending := rfl

/-! `wr` changes `mem` only. -/
@[simp] theorem State.wr_cyc (a : Nat) (bs : Bytes) : (s.wr a bs).cyc = s.cyc := rfl
@[simp] theorem State.wr_startCyc (a : Nat) (bs : Bytes) : (s.wr a bs).startCyc = s.startCyc := rfl
@[simp] theorem State.wr_phase (a : Nat) (bs : Bytes) : (s.wr a bs).phase = s.phase := rfl
@[simp] theorem State.wr_regs (a : Nat) (bs : Bytes) : (s.wr a bs).regs = s.regs := rfl
@[simp] theorem State.wr_fresh (a : Nat) (bs : Bytes) : (s.wr a bs).fresh = s.fresh := rfl
@[simp] theorem State.wr_sel (a : Nat) (bs : Bytes) : (s.wr a bs).sel = s.sel := rfl
@[simp] theorem State.wr_holdHi (a : Nat) (bs : Bytes) : (s.wr a bs).holdHi = s.holdHi := rfl
@[simp] theorem State.wr_heldLo (a : Nat) (bs : Bytes) : (s.wr a bs).heldLo = s.heldLo := rfl
@[simp] theorem State.wr_cores (a : Nat) (bs : Bytes) : (s.wr a bs).cores = s.cores := rfl
@[simp] theorem State.wr_arrs (a : Nat) (bs : Bytes) : (s.wr a bs).arrs = s.arrs := rfl
@[simp] theorem State.wr_parts (a : Nat) (bs : Bytes) : (s.wr a bs).parts = s.parts := rfl
@[simp] theorem State.wr_loads (a : Nat) (bs : Bytes) : (s.wr a bs).loads = s.loads := rfl
@[simp] theorem State.wr_reqs (a : Nat) (bs : Bytes) : (s.wr a bs).reqs = s.reqs := rfl
@[simp] theorem State.wr_isleMap (a : Nat) (bs : Bytes) : (s.wr a bs).isleMap = s.isleMap := rfl
@[simp] theorem State.wr_coreMap (a : Nat) (bs : Bytes) : (s.wr a bs).coreMap = s.coreMap := rfl
@[simp] theorem State.wr_arrMap (a : Nat) (bs : Bytes) : (s.wr a bs).arrMap = s.arrMap := rfl
@[simp] theorem State.wr_siteFail (a : Nat) (bs : Bytes) : (s.wr a bs).siteFail = s.siteFail := rfl
@[simp] theorem State.wr_siteCand (a : Nat) (bs : Bytes) : (s.wr a bs).siteCand = s.siteCand := rfl
@[simp] theorem State.wr_isleFail (a : Nat) (bs : Bytes) : (s.wr a bs).isleFail = s.isleFail := rfl
@[simp] theorem State.wr_edgeFail (a : Nat) (bs : Bytes) : (s.wr a bs).edgeFail = s.edgeFail := rfl
@[simp] theorem State.wr_repairQ (a : Nat) (bs : Bytes) : (s.wr a bs).repairQ = s.repairQ := rfl
@[simp] theorem State.wr_isleDue (a : Nat) (bs : Bytes) : (s.wr a bs).isleDue = s.isleDue := rfl
@[simp] theorem State.wr_resup (a : Nat) (bs : Bytes) : (s.wr a bs).resup = s.resup := rfl
@[simp] theorem State.wr_repRecs (a : Nat) (bs : Bytes) : (s.wr a bs).repRecs = s.repRecs := rfl
@[simp] theorem State.wr_repRoom (a : Nat) (bs : Bytes) : (s.wr a bs).repRoom = s.repRoom := rfl
@[simp] theorem State.wr_pw (a : Nat) (bs : Bytes) : (s.wr a bs).pw = s.pw := rfl
@[simp] theorem State.wr_heat (a : Nat) (bs : Bytes) : (s.wr a bs).heat = s.heat := rfl
@[simp] theorem State.wr_rings (a : Nat) (bs : Bytes) : (s.wr a bs).rings = s.rings := rfl
@[simp] theorem State.wr_d3 (a : Nat) (bs : Bytes) : (s.wr a bs).d3 = s.d3 := rfl
@[simp] theorem State.wr_pollFrom (a : Nat) (bs : Bytes) : (s.wr a bs).pollFrom = s.pollFrom := rfl
@[simp] theorem State.wr_linkUp (a : Nat) (bs : Bytes) : (s.wr a bs).linkUp = s.linkUp := rfl
@[simp] theorem State.wr_subq (a : Nat) (bs : Bytes) : (s.wr a bs).subq = s.subq := rfl
@[simp] theorem State.wr_fabric (a : Nat) (bs : Bytes) : (s.wr a bs).fabric = s.fabric := rfl
@[simp] theorem State.wr_sync (a : Nat) (bs : Bytes) : (s.wr a bs).sync = s.sync := rfl
@[simp] theorem State.wr_net (a : Nat) (bs : Bytes) : (s.wr a bs).net = s.net := rfl
@[simp] theorem State.wr_flows (a : Nat) (bs : Bytes) : (s.wr a bs).flows = s.flows := rfl
@[simp] theorem State.wr_netId (a : Nat) (bs : Bytes) : (s.wr a bs).netId = s.netId := rfl
@[simp] theorem State.wr_links (a : Nat) (bs : Bytes) : (s.wr a bs).links = s.links := rfl
@[simp] theorem State.wr_strait (a : Nat) (bs : Bytes) : (s.wr a bs).strait = s.strait := rfl
@[simp] theorem State.wr_chMap (a : Nat) (bs : Bytes) : (s.wr a bs).chMap = s.chMap := rfl
@[simp] theorem State.wr_stag (a : Nat) (bs : Bytes) : (s.wr a bs).stag = s.stag := rfl
@[simp] theorem State.wr_central (a : Nat) (bs : Bytes) : (s.wr a bs).central = s.central := rfl
@[simp] theorem State.wr_sideQ (a : Nat) (bs : Bytes) : (s.wr a bs).sideQ = s.sideQ := rfl
@[simp] theorem State.wr_alarms (a : Nat) (bs : Bytes) : (s.wr a bs).alarms = s.alarms := rfl
@[simp] theorem State.wr_seq (a : Nat) (bs : Bytes) : (s.wr a bs).seq = s.seq := rfl
@[simp] theorem State.wr_cmdKey (a : Nat) (bs : Bytes) : (s.wr a bs).cmdKey = s.cmdKey := rfl
@[simp] theorem State.wr_secRec (a : Nat) (bs : Bytes) : (s.wr a bs).secRec = s.secRec := rfl
@[simp] theorem State.wr_tagFails (a : Nat) (bs : Bytes) : (s.wr a bs).tagFails = s.tagFails := rfl
@[simp] theorem State.wr_lockAt (a : Nat) (bs : Bytes) : (s.wr a bs).lockAt = s.lockAt := rfl
@[simp] theorem State.wr_warnAt (a : Nat) (bs : Bytes) : (s.wr a bs).warnAt = s.warnAt := rfl
@[simp] theorem State.wr_meas (a : Nat) (bs : Bytes) : (s.wr a bs).meas = s.meas := rfl
@[simp] theorem State.wr_debugCount (a : Nat) (bs : Bytes) : (s.wr a bs).debugCount = s.debugCount := rfl
@[simp] theorem State.wr_fwu (a : Nat) (bs : Bytes) : (s.wr a bs).fwu = s.fwu := rfl
@[simp] theorem State.wr_restarts (a : Nat) (bs : Bytes) : (s.wr a bs).restarts = s.restarts := rfl
@[simp] theorem State.wr_tx (a : Nat) (bs : Bytes) : (s.wr a bs).tx = s.tx := rfl
@[simp] theorem State.wr_chain (a : Nat) (bs : Bytes) : (s.wr a bs).chain = s.chain := rfl
@[simp] theorem State.wr_spdm (a : Nat) (bs : Bytes) : (s.wr a bs).spdm = s.spdm := rfl
@[simp] theorem State.wr_sess (a : Nat) (bs : Bytes) : (s.wr a bs).sess = s.sess := rfl
@[simp] theorem State.wr_ide (a : Nat) (bs : Bytes) : (s.wr a bs).ide = s.ide := rfl
@[simp] theorem State.wr_ideKeys (a : Nat) (bs : Bytes) : (s.wr a bs).ideKeys = s.ideKeys := rfl
@[simp] theorem State.wr_eid (a : Nat) (bs : Bytes) : (s.wr a bs).eid = s.eid := rfl
@[simp] theorem State.wr_icAt (a : Nat) (bs : Bytes) : (s.wr a bs).icAt = s.icAt := rfl
@[simp] theorem State.wr_out (a : Nat) (bs : Bytes) : (s.wr a bs).out = s.out := rfl
@[simp] theorem State.wr_free (a : Nat) (bs : Bytes) : (s.wr a bs).free = s.free := rfl
@[simp] theorem State.wr_accEpoch (a : Nat) (bs : Bytes) : (s.wr a bs).accEpoch = s.accEpoch := rfl
@[simp] theorem State.wr_pending (a : Nat) (bs : Bytes) : (s.wr a bs).pending = s.pending := rfl

/-! `setCore` changes `cores` only. -/
@[simp] theorem State.setCore_cyc (c : CoreId) (k : Core) : (s.setCore c k).cyc = s.cyc := rfl
@[simp] theorem State.setCore_startCyc (c : CoreId) (k : Core) : (s.setCore c k).startCyc = s.startCyc := rfl
@[simp] theorem State.setCore_phase (c : CoreId) (k : Core) : (s.setCore c k).phase = s.phase := rfl
@[simp] theorem State.setCore_regs (c : CoreId) (k : Core) : (s.setCore c k).regs = s.regs := rfl
@[simp] theorem State.setCore_fresh (c : CoreId) (k : Core) : (s.setCore c k).fresh = s.fresh := rfl
@[simp] theorem State.setCore_sel (c : CoreId) (k : Core) : (s.setCore c k).sel = s.sel := rfl
@[simp] theorem State.setCore_holdHi (c : CoreId) (k : Core) : (s.setCore c k).holdHi = s.holdHi := rfl
@[simp] theorem State.setCore_heldLo (c : CoreId) (k : Core) : (s.setCore c k).heldLo = s.heldLo := rfl
@[simp] theorem State.setCore_mem (c : CoreId) (k : Core) : (s.setCore c k).mem = s.mem := rfl
@[simp] theorem State.setCore_arrs (c : CoreId) (k : Core) : (s.setCore c k).arrs = s.arrs := rfl
@[simp] theorem State.setCore_parts (c : CoreId) (k : Core) : (s.setCore c k).parts = s.parts := rfl
@[simp] theorem State.setCore_loads (c : CoreId) (k : Core) : (s.setCore c k).loads = s.loads := rfl
@[simp] theorem State.setCore_reqs (c : CoreId) (k : Core) : (s.setCore c k).reqs = s.reqs := rfl
@[simp] theorem State.setCore_isleMap (c : CoreId) (k : Core) : (s.setCore c k).isleMap = s.isleMap := rfl
@[simp] theorem State.setCore_coreMap (c : CoreId) (k : Core) : (s.setCore c k).coreMap = s.coreMap := rfl
@[simp] theorem State.setCore_arrMap (c : CoreId) (k : Core) : (s.setCore c k).arrMap = s.arrMap := rfl
@[simp] theorem State.setCore_siteFail (c : CoreId) (k : Core) : (s.setCore c k).siteFail = s.siteFail := rfl
@[simp] theorem State.setCore_siteCand (c : CoreId) (k : Core) : (s.setCore c k).siteCand = s.siteCand := rfl
@[simp] theorem State.setCore_isleFail (c : CoreId) (k : Core) : (s.setCore c k).isleFail = s.isleFail := rfl
@[simp] theorem State.setCore_edgeFail (c : CoreId) (k : Core) : (s.setCore c k).edgeFail = s.edgeFail := rfl
@[simp] theorem State.setCore_repairQ (c : CoreId) (k : Core) : (s.setCore c k).repairQ = s.repairQ := rfl
@[simp] theorem State.setCore_isleDue (c : CoreId) (k : Core) : (s.setCore c k).isleDue = s.isleDue := rfl
@[simp] theorem State.setCore_resup (c : CoreId) (k : Core) : (s.setCore c k).resup = s.resup := rfl
@[simp] theorem State.setCore_repRecs (c : CoreId) (k : Core) : (s.setCore c k).repRecs = s.repRecs := rfl
@[simp] theorem State.setCore_repRoom (c : CoreId) (k : Core) : (s.setCore c k).repRoom = s.repRoom := rfl
@[simp] theorem State.setCore_pw (c : CoreId) (k : Core) : (s.setCore c k).pw = s.pw := rfl
@[simp] theorem State.setCore_heat (c : CoreId) (k : Core) : (s.setCore c k).heat = s.heat := rfl
@[simp] theorem State.setCore_rings (c : CoreId) (k : Core) : (s.setCore c k).rings = s.rings := rfl
@[simp] theorem State.setCore_d3 (c : CoreId) (k : Core) : (s.setCore c k).d3 = s.d3 := rfl
@[simp] theorem State.setCore_pollFrom (c : CoreId) (k : Core) : (s.setCore c k).pollFrom = s.pollFrom := rfl
@[simp] theorem State.setCore_linkUp (c : CoreId) (k : Core) : (s.setCore c k).linkUp = s.linkUp := rfl
@[simp] theorem State.setCore_subq (c : CoreId) (k : Core) : (s.setCore c k).subq = s.subq := rfl
@[simp] theorem State.setCore_fabric (c : CoreId) (k : Core) : (s.setCore c k).fabric = s.fabric := rfl
@[simp] theorem State.setCore_sync (c : CoreId) (k : Core) : (s.setCore c k).sync = s.sync := rfl
@[simp] theorem State.setCore_net (c : CoreId) (k : Core) : (s.setCore c k).net = s.net := rfl
@[simp] theorem State.setCore_flows (c : CoreId) (k : Core) : (s.setCore c k).flows = s.flows := rfl
@[simp] theorem State.setCore_netId (c : CoreId) (k : Core) : (s.setCore c k).netId = s.netId := rfl
@[simp] theorem State.setCore_links (c : CoreId) (k : Core) : (s.setCore c k).links = s.links := rfl
@[simp] theorem State.setCore_strait (c : CoreId) (k : Core) : (s.setCore c k).strait = s.strait := rfl
@[simp] theorem State.setCore_chMap (c : CoreId) (k : Core) : (s.setCore c k).chMap = s.chMap := rfl
@[simp] theorem State.setCore_stag (c : CoreId) (k : Core) : (s.setCore c k).stag = s.stag := rfl
@[simp] theorem State.setCore_central (c : CoreId) (k : Core) : (s.setCore c k).central = s.central := rfl
@[simp] theorem State.setCore_sideQ (c : CoreId) (k : Core) : (s.setCore c k).sideQ = s.sideQ := rfl
@[simp] theorem State.setCore_alarms (c : CoreId) (k : Core) : (s.setCore c k).alarms = s.alarms := rfl
@[simp] theorem State.setCore_seq (c : CoreId) (k : Core) : (s.setCore c k).seq = s.seq := rfl
@[simp] theorem State.setCore_cmdKey (c : CoreId) (k : Core) : (s.setCore c k).cmdKey = s.cmdKey := rfl
@[simp] theorem State.setCore_secRec (c : CoreId) (k : Core) : (s.setCore c k).secRec = s.secRec := rfl
@[simp] theorem State.setCore_tagFails (c : CoreId) (k : Core) : (s.setCore c k).tagFails = s.tagFails := rfl
@[simp] theorem State.setCore_lockAt (c : CoreId) (k : Core) : (s.setCore c k).lockAt = s.lockAt := rfl
@[simp] theorem State.setCore_warnAt (c : CoreId) (k : Core) : (s.setCore c k).warnAt = s.warnAt := rfl
@[simp] theorem State.setCore_meas (c : CoreId) (k : Core) : (s.setCore c k).meas = s.meas := rfl
@[simp] theorem State.setCore_debugCount (c : CoreId) (k : Core) : (s.setCore c k).debugCount = s.debugCount := rfl
@[simp] theorem State.setCore_fwu (c : CoreId) (k : Core) : (s.setCore c k).fwu = s.fwu := rfl
@[simp] theorem State.setCore_restarts (c : CoreId) (k : Core) : (s.setCore c k).restarts = s.restarts := rfl
@[simp] theorem State.setCore_tx (c : CoreId) (k : Core) : (s.setCore c k).tx = s.tx := rfl
@[simp] theorem State.setCore_chain (c : CoreId) (k : Core) : (s.setCore c k).chain = s.chain := rfl
@[simp] theorem State.setCore_spdm (c : CoreId) (k : Core) : (s.setCore c k).spdm = s.spdm := rfl
@[simp] theorem State.setCore_sess (c : CoreId) (k : Core) : (s.setCore c k).sess = s.sess := rfl
@[simp] theorem State.setCore_ide (c : CoreId) (k : Core) : (s.setCore c k).ide = s.ide := rfl
@[simp] theorem State.setCore_ideKeys (c : CoreId) (k : Core) : (s.setCore c k).ideKeys = s.ideKeys := rfl
@[simp] theorem State.setCore_eid (c : CoreId) (k : Core) : (s.setCore c k).eid = s.eid := rfl
@[simp] theorem State.setCore_icAt (c : CoreId) (k : Core) : (s.setCore c k).icAt = s.icAt := rfl
@[simp] theorem State.setCore_out (c : CoreId) (k : Core) : (s.setCore c k).out = s.out := rfl
@[simp] theorem State.setCore_free (c : CoreId) (k : Core) : (s.setCore c k).free = s.free := rfl
@[simp] theorem State.setCore_accEpoch (c : CoreId) (k : Core) : (s.setCore c k).accEpoch = s.accEpoch := rfl
@[simp] theorem State.setCore_pending (c : CoreId) (k : Core) : (s.setCore c k).pending = s.pending := rfl

/-! `setArr` changes `arrs` only. -/
@[simp] theorem State.setArr_cyc (i : Nat) (a : Arr) : (s.setArr i a).cyc = s.cyc := rfl
@[simp] theorem State.setArr_startCyc (i : Nat) (a : Arr) : (s.setArr i a).startCyc = s.startCyc := rfl
@[simp] theorem State.setArr_phase (i : Nat) (a : Arr) : (s.setArr i a).phase = s.phase := rfl
@[simp] theorem State.setArr_regs (i : Nat) (a : Arr) : (s.setArr i a).regs = s.regs := rfl
@[simp] theorem State.setArr_fresh (i : Nat) (a : Arr) : (s.setArr i a).fresh = s.fresh := rfl
@[simp] theorem State.setArr_sel (i : Nat) (a : Arr) : (s.setArr i a).sel = s.sel := rfl
@[simp] theorem State.setArr_holdHi (i : Nat) (a : Arr) : (s.setArr i a).holdHi = s.holdHi := rfl
@[simp] theorem State.setArr_heldLo (i : Nat) (a : Arr) : (s.setArr i a).heldLo = s.heldLo := rfl
@[simp] theorem State.setArr_mem (i : Nat) (a : Arr) : (s.setArr i a).mem = s.mem := rfl
@[simp] theorem State.setArr_cores (i : Nat) (a : Arr) : (s.setArr i a).cores = s.cores := rfl
@[simp] theorem State.setArr_parts (i : Nat) (a : Arr) : (s.setArr i a).parts = s.parts := rfl
@[simp] theorem State.setArr_loads (i : Nat) (a : Arr) : (s.setArr i a).loads = s.loads := rfl
@[simp] theorem State.setArr_reqs (i : Nat) (a : Arr) : (s.setArr i a).reqs = s.reqs := rfl
@[simp] theorem State.setArr_isleMap (i : Nat) (a : Arr) : (s.setArr i a).isleMap = s.isleMap := rfl
@[simp] theorem State.setArr_coreMap (i : Nat) (a : Arr) : (s.setArr i a).coreMap = s.coreMap := rfl
@[simp] theorem State.setArr_arrMap (i : Nat) (a : Arr) : (s.setArr i a).arrMap = s.arrMap := rfl
@[simp] theorem State.setArr_siteFail (i : Nat) (a : Arr) : (s.setArr i a).siteFail = s.siteFail := rfl
@[simp] theorem State.setArr_siteCand (i : Nat) (a : Arr) : (s.setArr i a).siteCand = s.siteCand := rfl
@[simp] theorem State.setArr_isleFail (i : Nat) (a : Arr) : (s.setArr i a).isleFail = s.isleFail := rfl
@[simp] theorem State.setArr_edgeFail (i : Nat) (a : Arr) : (s.setArr i a).edgeFail = s.edgeFail := rfl
@[simp] theorem State.setArr_repairQ (i : Nat) (a : Arr) : (s.setArr i a).repairQ = s.repairQ := rfl
@[simp] theorem State.setArr_isleDue (i : Nat) (a : Arr) : (s.setArr i a).isleDue = s.isleDue := rfl
@[simp] theorem State.setArr_resup (i : Nat) (a : Arr) : (s.setArr i a).resup = s.resup := rfl
@[simp] theorem State.setArr_repRecs (i : Nat) (a : Arr) : (s.setArr i a).repRecs = s.repRecs := rfl
@[simp] theorem State.setArr_repRoom (i : Nat) (a : Arr) : (s.setArr i a).repRoom = s.repRoom := rfl
@[simp] theorem State.setArr_pw (i : Nat) (a : Arr) : (s.setArr i a).pw = s.pw := rfl
@[simp] theorem State.setArr_heat (i : Nat) (a : Arr) : (s.setArr i a).heat = s.heat := rfl
@[simp] theorem State.setArr_rings (i : Nat) (a : Arr) : (s.setArr i a).rings = s.rings := rfl
@[simp] theorem State.setArr_d3 (i : Nat) (a : Arr) : (s.setArr i a).d3 = s.d3 := rfl
@[simp] theorem State.setArr_pollFrom (i : Nat) (a : Arr) : (s.setArr i a).pollFrom = s.pollFrom := rfl
@[simp] theorem State.setArr_linkUp (i : Nat) (a : Arr) : (s.setArr i a).linkUp = s.linkUp := rfl
@[simp] theorem State.setArr_subq (i : Nat) (a : Arr) : (s.setArr i a).subq = s.subq := rfl
@[simp] theorem State.setArr_fabric (i : Nat) (a : Arr) : (s.setArr i a).fabric = s.fabric := rfl
@[simp] theorem State.setArr_sync (i : Nat) (a : Arr) : (s.setArr i a).sync = s.sync := rfl
@[simp] theorem State.setArr_net (i : Nat) (a : Arr) : (s.setArr i a).net = s.net := rfl
@[simp] theorem State.setArr_flows (i : Nat) (a : Arr) : (s.setArr i a).flows = s.flows := rfl
@[simp] theorem State.setArr_netId (i : Nat) (a : Arr) : (s.setArr i a).netId = s.netId := rfl
@[simp] theorem State.setArr_links (i : Nat) (a : Arr) : (s.setArr i a).links = s.links := rfl
@[simp] theorem State.setArr_strait (i : Nat) (a : Arr) : (s.setArr i a).strait = s.strait := rfl
@[simp] theorem State.setArr_chMap (i : Nat) (a : Arr) : (s.setArr i a).chMap = s.chMap := rfl
@[simp] theorem State.setArr_stag (i : Nat) (a : Arr) : (s.setArr i a).stag = s.stag := rfl
@[simp] theorem State.setArr_central (i : Nat) (a : Arr) : (s.setArr i a).central = s.central := rfl
@[simp] theorem State.setArr_sideQ (i : Nat) (a : Arr) : (s.setArr i a).sideQ = s.sideQ := rfl
@[simp] theorem State.setArr_alarms (i : Nat) (a : Arr) : (s.setArr i a).alarms = s.alarms := rfl
@[simp] theorem State.setArr_seq (i : Nat) (a : Arr) : (s.setArr i a).seq = s.seq := rfl
@[simp] theorem State.setArr_cmdKey (i : Nat) (a : Arr) : (s.setArr i a).cmdKey = s.cmdKey := rfl
@[simp] theorem State.setArr_secRec (i : Nat) (a : Arr) : (s.setArr i a).secRec = s.secRec := rfl
@[simp] theorem State.setArr_tagFails (i : Nat) (a : Arr) : (s.setArr i a).tagFails = s.tagFails := rfl
@[simp] theorem State.setArr_lockAt (i : Nat) (a : Arr) : (s.setArr i a).lockAt = s.lockAt := rfl
@[simp] theorem State.setArr_warnAt (i : Nat) (a : Arr) : (s.setArr i a).warnAt = s.warnAt := rfl
@[simp] theorem State.setArr_meas (i : Nat) (a : Arr) : (s.setArr i a).meas = s.meas := rfl
@[simp] theorem State.setArr_debugCount (i : Nat) (a : Arr) : (s.setArr i a).debugCount = s.debugCount := rfl
@[simp] theorem State.setArr_fwu (i : Nat) (a : Arr) : (s.setArr i a).fwu = s.fwu := rfl
@[simp] theorem State.setArr_restarts (i : Nat) (a : Arr) : (s.setArr i a).restarts = s.restarts := rfl
@[simp] theorem State.setArr_tx (i : Nat) (a : Arr) : (s.setArr i a).tx = s.tx := rfl
@[simp] theorem State.setArr_chain (i : Nat) (a : Arr) : (s.setArr i a).chain = s.chain := rfl
@[simp] theorem State.setArr_spdm (i : Nat) (a : Arr) : (s.setArr i a).spdm = s.spdm := rfl
@[simp] theorem State.setArr_sess (i : Nat) (a : Arr) : (s.setArr i a).sess = s.sess := rfl
@[simp] theorem State.setArr_ide (i : Nat) (a : Arr) : (s.setArr i a).ide = s.ide := rfl
@[simp] theorem State.setArr_ideKeys (i : Nat) (a : Arr) : (s.setArr i a).ideKeys = s.ideKeys := rfl
@[simp] theorem State.setArr_eid (i : Nat) (a : Arr) : (s.setArr i a).eid = s.eid := rfl
@[simp] theorem State.setArr_icAt (i : Nat) (a : Arr) : (s.setArr i a).icAt = s.icAt := rfl
@[simp] theorem State.setArr_out (i : Nat) (a : Arr) : (s.setArr i a).out = s.out := rfl
@[simp] theorem State.setArr_free (i : Nat) (a : Arr) : (s.setArr i a).free = s.free := rfl
@[simp] theorem State.setArr_accEpoch (i : Nat) (a : Arr) : (s.setArr i a).accEpoch = s.accEpoch := rfl
@[simp] theorem State.setArr_pending (i : Nat) (a : Arr) : (s.setArr i a).pending = s.pending := rfl

/-! `setPart` changes `parts` only. -/
@[simp] theorem State.setPart_cyc (p : Nat) (q : Part) : (s.setPart p q).cyc = s.cyc := rfl
@[simp] theorem State.setPart_startCyc (p : Nat) (q : Part) : (s.setPart p q).startCyc = s.startCyc := rfl
@[simp] theorem State.setPart_phase (p : Nat) (q : Part) : (s.setPart p q).phase = s.phase := rfl
@[simp] theorem State.setPart_regs (p : Nat) (q : Part) : (s.setPart p q).regs = s.regs := rfl
@[simp] theorem State.setPart_fresh (p : Nat) (q : Part) : (s.setPart p q).fresh = s.fresh := rfl
@[simp] theorem State.setPart_sel (p : Nat) (q : Part) : (s.setPart p q).sel = s.sel := rfl
@[simp] theorem State.setPart_holdHi (p : Nat) (q : Part) : (s.setPart p q).holdHi = s.holdHi := rfl
@[simp] theorem State.setPart_heldLo (p : Nat) (q : Part) : (s.setPart p q).heldLo = s.heldLo := rfl
@[simp] theorem State.setPart_mem (p : Nat) (q : Part) : (s.setPart p q).mem = s.mem := rfl
@[simp] theorem State.setPart_cores (p : Nat) (q : Part) : (s.setPart p q).cores = s.cores := rfl
@[simp] theorem State.setPart_arrs (p : Nat) (q : Part) : (s.setPart p q).arrs = s.arrs := rfl
@[simp] theorem State.setPart_loads (p : Nat) (q : Part) : (s.setPart p q).loads = s.loads := rfl
@[simp] theorem State.setPart_reqs (p : Nat) (q : Part) : (s.setPart p q).reqs = s.reqs := rfl
@[simp] theorem State.setPart_isleMap (p : Nat) (q : Part) : (s.setPart p q).isleMap = s.isleMap := rfl
@[simp] theorem State.setPart_coreMap (p : Nat) (q : Part) : (s.setPart p q).coreMap = s.coreMap := rfl
@[simp] theorem State.setPart_arrMap (p : Nat) (q : Part) : (s.setPart p q).arrMap = s.arrMap := rfl
@[simp] theorem State.setPart_siteFail (p : Nat) (q : Part) : (s.setPart p q).siteFail = s.siteFail := rfl
@[simp] theorem State.setPart_siteCand (p : Nat) (q : Part) : (s.setPart p q).siteCand = s.siteCand := rfl
@[simp] theorem State.setPart_isleFail (p : Nat) (q : Part) : (s.setPart p q).isleFail = s.isleFail := rfl
@[simp] theorem State.setPart_edgeFail (p : Nat) (q : Part) : (s.setPart p q).edgeFail = s.edgeFail := rfl
@[simp] theorem State.setPart_repairQ (p : Nat) (q : Part) : (s.setPart p q).repairQ = s.repairQ := rfl
@[simp] theorem State.setPart_isleDue (p : Nat) (q : Part) : (s.setPart p q).isleDue = s.isleDue := rfl
@[simp] theorem State.setPart_resup (p : Nat) (q : Part) : (s.setPart p q).resup = s.resup := rfl
@[simp] theorem State.setPart_repRecs (p : Nat) (q : Part) : (s.setPart p q).repRecs = s.repRecs := rfl
@[simp] theorem State.setPart_repRoom (p : Nat) (q : Part) : (s.setPart p q).repRoom = s.repRoom := rfl
@[simp] theorem State.setPart_pw (p : Nat) (q : Part) : (s.setPart p q).pw = s.pw := rfl
@[simp] theorem State.setPart_heat (p : Nat) (q : Part) : (s.setPart p q).heat = s.heat := rfl
@[simp] theorem State.setPart_rings (p : Nat) (q : Part) : (s.setPart p q).rings = s.rings := rfl
@[simp] theorem State.setPart_d3 (p : Nat) (q : Part) : (s.setPart p q).d3 = s.d3 := rfl
@[simp] theorem State.setPart_pollFrom (p : Nat) (q : Part) : (s.setPart p q).pollFrom = s.pollFrom := rfl
@[simp] theorem State.setPart_linkUp (p : Nat) (q : Part) : (s.setPart p q).linkUp = s.linkUp := rfl
@[simp] theorem State.setPart_subq (p : Nat) (q : Part) : (s.setPart p q).subq = s.subq := rfl
@[simp] theorem State.setPart_fabric (p : Nat) (q : Part) : (s.setPart p q).fabric = s.fabric := rfl
@[simp] theorem State.setPart_sync (p : Nat) (q : Part) : (s.setPart p q).sync = s.sync := rfl
@[simp] theorem State.setPart_net (p : Nat) (q : Part) : (s.setPart p q).net = s.net := rfl
@[simp] theorem State.setPart_flows (p : Nat) (q : Part) : (s.setPart p q).flows = s.flows := rfl
@[simp] theorem State.setPart_netId (p : Nat) (q : Part) : (s.setPart p q).netId = s.netId := rfl
@[simp] theorem State.setPart_links (p : Nat) (q : Part) : (s.setPart p q).links = s.links := rfl
@[simp] theorem State.setPart_strait (p : Nat) (q : Part) : (s.setPart p q).strait = s.strait := rfl
@[simp] theorem State.setPart_chMap (p : Nat) (q : Part) : (s.setPart p q).chMap = s.chMap := rfl
@[simp] theorem State.setPart_stag (p : Nat) (q : Part) : (s.setPart p q).stag = s.stag := rfl
@[simp] theorem State.setPart_central (p : Nat) (q : Part) : (s.setPart p q).central = s.central := rfl
@[simp] theorem State.setPart_sideQ (p : Nat) (q : Part) : (s.setPart p q).sideQ = s.sideQ := rfl
@[simp] theorem State.setPart_alarms (p : Nat) (q : Part) : (s.setPart p q).alarms = s.alarms := rfl
@[simp] theorem State.setPart_seq (p : Nat) (q : Part) : (s.setPart p q).seq = s.seq := rfl
@[simp] theorem State.setPart_cmdKey (p : Nat) (q : Part) : (s.setPart p q).cmdKey = s.cmdKey := rfl
@[simp] theorem State.setPart_secRec (p : Nat) (q : Part) : (s.setPart p q).secRec = s.secRec := rfl
@[simp] theorem State.setPart_tagFails (p : Nat) (q : Part) : (s.setPart p q).tagFails = s.tagFails := rfl
@[simp] theorem State.setPart_lockAt (p : Nat) (q : Part) : (s.setPart p q).lockAt = s.lockAt := rfl
@[simp] theorem State.setPart_warnAt (p : Nat) (q : Part) : (s.setPart p q).warnAt = s.warnAt := rfl
@[simp] theorem State.setPart_meas (p : Nat) (q : Part) : (s.setPart p q).meas = s.meas := rfl
@[simp] theorem State.setPart_debugCount (p : Nat) (q : Part) : (s.setPart p q).debugCount = s.debugCount := rfl
@[simp] theorem State.setPart_fwu (p : Nat) (q : Part) : (s.setPart p q).fwu = s.fwu := rfl
@[simp] theorem State.setPart_restarts (p : Nat) (q : Part) : (s.setPart p q).restarts = s.restarts := rfl
@[simp] theorem State.setPart_tx (p : Nat) (q : Part) : (s.setPart p q).tx = s.tx := rfl
@[simp] theorem State.setPart_chain (p : Nat) (q : Part) : (s.setPart p q).chain = s.chain := rfl
@[simp] theorem State.setPart_spdm (p : Nat) (q : Part) : (s.setPart p q).spdm = s.spdm := rfl
@[simp] theorem State.setPart_sess (p : Nat) (q : Part) : (s.setPart p q).sess = s.sess := rfl
@[simp] theorem State.setPart_ide (p : Nat) (q : Part) : (s.setPart p q).ide = s.ide := rfl
@[simp] theorem State.setPart_ideKeys (p : Nat) (q : Part) : (s.setPart p q).ideKeys = s.ideKeys := rfl
@[simp] theorem State.setPart_eid (p : Nat) (q : Part) : (s.setPart p q).eid = s.eid := rfl
@[simp] theorem State.setPart_icAt (p : Nat) (q : Part) : (s.setPart p q).icAt = s.icAt := rfl
@[simp] theorem State.setPart_out (p : Nat) (q : Part) : (s.setPart p q).out = s.out := rfl
@[simp] theorem State.setPart_free (p : Nat) (q : Part) : (s.setPart p q).free = s.free := rfl
@[simp] theorem State.setPart_accEpoch (p : Nat) (q : Part) : (s.setPart p q).accEpoch = s.accEpoch := rfl
@[simp] theorem State.setPart_pending (p : Nat) (q : Part) : (s.setPart p q).pending = s.pending := rfl

/-! `setReq` changes `reqs` only. -/
@[simp] theorem State.setReq_cyc (e : Nat) (r : Req) : (s.setReq e r).cyc = s.cyc := rfl
@[simp] theorem State.setReq_startCyc (e : Nat) (r : Req) : (s.setReq e r).startCyc = s.startCyc := rfl
@[simp] theorem State.setReq_phase (e : Nat) (r : Req) : (s.setReq e r).phase = s.phase := rfl
@[simp] theorem State.setReq_regs (e : Nat) (r : Req) : (s.setReq e r).regs = s.regs := rfl
@[simp] theorem State.setReq_fresh (e : Nat) (r : Req) : (s.setReq e r).fresh = s.fresh := rfl
@[simp] theorem State.setReq_sel (e : Nat) (r : Req) : (s.setReq e r).sel = s.sel := rfl
@[simp] theorem State.setReq_holdHi (e : Nat) (r : Req) : (s.setReq e r).holdHi = s.holdHi := rfl
@[simp] theorem State.setReq_heldLo (e : Nat) (r : Req) : (s.setReq e r).heldLo = s.heldLo := rfl
@[simp] theorem State.setReq_mem (e : Nat) (r : Req) : (s.setReq e r).mem = s.mem := rfl
@[simp] theorem State.setReq_cores (e : Nat) (r : Req) : (s.setReq e r).cores = s.cores := rfl
@[simp] theorem State.setReq_arrs (e : Nat) (r : Req) : (s.setReq e r).arrs = s.arrs := rfl
@[simp] theorem State.setReq_parts (e : Nat) (r : Req) : (s.setReq e r).parts = s.parts := rfl
@[simp] theorem State.setReq_loads (e : Nat) (r : Req) : (s.setReq e r).loads = s.loads := rfl
@[simp] theorem State.setReq_isleMap (e : Nat) (r : Req) : (s.setReq e r).isleMap = s.isleMap := rfl
@[simp] theorem State.setReq_coreMap (e : Nat) (r : Req) : (s.setReq e r).coreMap = s.coreMap := rfl
@[simp] theorem State.setReq_arrMap (e : Nat) (r : Req) : (s.setReq e r).arrMap = s.arrMap := rfl
@[simp] theorem State.setReq_siteFail (e : Nat) (r : Req) : (s.setReq e r).siteFail = s.siteFail := rfl
@[simp] theorem State.setReq_siteCand (e : Nat) (r : Req) : (s.setReq e r).siteCand = s.siteCand := rfl
@[simp] theorem State.setReq_isleFail (e : Nat) (r : Req) : (s.setReq e r).isleFail = s.isleFail := rfl
@[simp] theorem State.setReq_edgeFail (e : Nat) (r : Req) : (s.setReq e r).edgeFail = s.edgeFail := rfl
@[simp] theorem State.setReq_repairQ (e : Nat) (r : Req) : (s.setReq e r).repairQ = s.repairQ := rfl
@[simp] theorem State.setReq_isleDue (e : Nat) (r : Req) : (s.setReq e r).isleDue = s.isleDue := rfl
@[simp] theorem State.setReq_resup (e : Nat) (r : Req) : (s.setReq e r).resup = s.resup := rfl
@[simp] theorem State.setReq_repRecs (e : Nat) (r : Req) : (s.setReq e r).repRecs = s.repRecs := rfl
@[simp] theorem State.setReq_repRoom (e : Nat) (r : Req) : (s.setReq e r).repRoom = s.repRoom := rfl
@[simp] theorem State.setReq_pw (e : Nat) (r : Req) : (s.setReq e r).pw = s.pw := rfl
@[simp] theorem State.setReq_heat (e : Nat) (r : Req) : (s.setReq e r).heat = s.heat := rfl
@[simp] theorem State.setReq_rings (e : Nat) (r : Req) : (s.setReq e r).rings = s.rings := rfl
@[simp] theorem State.setReq_d3 (e : Nat) (r : Req) : (s.setReq e r).d3 = s.d3 := rfl
@[simp] theorem State.setReq_pollFrom (e : Nat) (r : Req) : (s.setReq e r).pollFrom = s.pollFrom := rfl
@[simp] theorem State.setReq_linkUp (e : Nat) (r : Req) : (s.setReq e r).linkUp = s.linkUp := rfl
@[simp] theorem State.setReq_subq (e : Nat) (r : Req) : (s.setReq e r).subq = s.subq := rfl
@[simp] theorem State.setReq_fabric (e : Nat) (r : Req) : (s.setReq e r).fabric = s.fabric := rfl
@[simp] theorem State.setReq_sync (e : Nat) (r : Req) : (s.setReq e r).sync = s.sync := rfl
@[simp] theorem State.setReq_net (e : Nat) (r : Req) : (s.setReq e r).net = s.net := rfl
@[simp] theorem State.setReq_flows (e : Nat) (r : Req) : (s.setReq e r).flows = s.flows := rfl
@[simp] theorem State.setReq_netId (e : Nat) (r : Req) : (s.setReq e r).netId = s.netId := rfl
@[simp] theorem State.setReq_links (e : Nat) (r : Req) : (s.setReq e r).links = s.links := rfl
@[simp] theorem State.setReq_strait (e : Nat) (r : Req) : (s.setReq e r).strait = s.strait := rfl
@[simp] theorem State.setReq_chMap (e : Nat) (r : Req) : (s.setReq e r).chMap = s.chMap := rfl
@[simp] theorem State.setReq_stag (e : Nat) (r : Req) : (s.setReq e r).stag = s.stag := rfl
@[simp] theorem State.setReq_central (e : Nat) (r : Req) : (s.setReq e r).central = s.central := rfl
@[simp] theorem State.setReq_sideQ (e : Nat) (r : Req) : (s.setReq e r).sideQ = s.sideQ := rfl
@[simp] theorem State.setReq_alarms (e : Nat) (r : Req) : (s.setReq e r).alarms = s.alarms := rfl
@[simp] theorem State.setReq_seq (e : Nat) (r : Req) : (s.setReq e r).seq = s.seq := rfl
@[simp] theorem State.setReq_cmdKey (e : Nat) (r : Req) : (s.setReq e r).cmdKey = s.cmdKey := rfl
@[simp] theorem State.setReq_secRec (e : Nat) (r : Req) : (s.setReq e r).secRec = s.secRec := rfl
@[simp] theorem State.setReq_tagFails (e : Nat) (r : Req) : (s.setReq e r).tagFails = s.tagFails := rfl
@[simp] theorem State.setReq_lockAt (e : Nat) (r : Req) : (s.setReq e r).lockAt = s.lockAt := rfl
@[simp] theorem State.setReq_warnAt (e : Nat) (r : Req) : (s.setReq e r).warnAt = s.warnAt := rfl
@[simp] theorem State.setReq_meas (e : Nat) (r : Req) : (s.setReq e r).meas = s.meas := rfl
@[simp] theorem State.setReq_debugCount (e : Nat) (r : Req) : (s.setReq e r).debugCount = s.debugCount := rfl
@[simp] theorem State.setReq_fwu (e : Nat) (r : Req) : (s.setReq e r).fwu = s.fwu := rfl
@[simp] theorem State.setReq_restarts (e : Nat) (r : Req) : (s.setReq e r).restarts = s.restarts := rfl
@[simp] theorem State.setReq_tx (e : Nat) (r : Req) : (s.setReq e r).tx = s.tx := rfl
@[simp] theorem State.setReq_chain (e : Nat) (r : Req) : (s.setReq e r).chain = s.chain := rfl
@[simp] theorem State.setReq_spdm (e : Nat) (r : Req) : (s.setReq e r).spdm = s.spdm := rfl
@[simp] theorem State.setReq_sess (e : Nat) (r : Req) : (s.setReq e r).sess = s.sess := rfl
@[simp] theorem State.setReq_ide (e : Nat) (r : Req) : (s.setReq e r).ide = s.ide := rfl
@[simp] theorem State.setReq_ideKeys (e : Nat) (r : Req) : (s.setReq e r).ideKeys = s.ideKeys := rfl
@[simp] theorem State.setReq_eid (e : Nat) (r : Req) : (s.setReq e r).eid = s.eid := rfl
@[simp] theorem State.setReq_icAt (e : Nat) (r : Req) : (s.setReq e r).icAt = s.icAt := rfl
@[simp] theorem State.setReq_out (e : Nat) (r : Req) : (s.setReq e r).out = s.out := rfl
@[simp] theorem State.setReq_free (e : Nat) (r : Req) : (s.setReq e r).free = s.free := rfl
@[simp] theorem State.setReq_accEpoch (e : Nat) (r : Req) : (s.setReq e r).accEpoch = s.accEpoch := rfl
@[simp] theorem State.setReq_pending (e : Nat) (r : Req) : (s.setReq e r).pending = s.pending := rfl

/-! `send` changes `out` only. -/
@[simp] theorem State.send_cyc (o : Out) : (s.send o).cyc = s.cyc := rfl
@[simp] theorem State.send_startCyc (o : Out) : (s.send o).startCyc = s.startCyc := rfl
@[simp] theorem State.send_phase (o : Out) : (s.send o).phase = s.phase := rfl
@[simp] theorem State.send_regs (o : Out) : (s.send o).regs = s.regs := rfl
@[simp] theorem State.send_fresh (o : Out) : (s.send o).fresh = s.fresh := rfl
@[simp] theorem State.send_sel (o : Out) : (s.send o).sel = s.sel := rfl
@[simp] theorem State.send_holdHi (o : Out) : (s.send o).holdHi = s.holdHi := rfl
@[simp] theorem State.send_heldLo (o : Out) : (s.send o).heldLo = s.heldLo := rfl
@[simp] theorem State.send_mem (o : Out) : (s.send o).mem = s.mem := rfl
@[simp] theorem State.send_cores (o : Out) : (s.send o).cores = s.cores := rfl
@[simp] theorem State.send_arrs (o : Out) : (s.send o).arrs = s.arrs := rfl
@[simp] theorem State.send_parts (o : Out) : (s.send o).parts = s.parts := rfl
@[simp] theorem State.send_loads (o : Out) : (s.send o).loads = s.loads := rfl
@[simp] theorem State.send_reqs (o : Out) : (s.send o).reqs = s.reqs := rfl
@[simp] theorem State.send_isleMap (o : Out) : (s.send o).isleMap = s.isleMap := rfl
@[simp] theorem State.send_coreMap (o : Out) : (s.send o).coreMap = s.coreMap := rfl
@[simp] theorem State.send_arrMap (o : Out) : (s.send o).arrMap = s.arrMap := rfl
@[simp] theorem State.send_siteFail (o : Out) : (s.send o).siteFail = s.siteFail := rfl
@[simp] theorem State.send_siteCand (o : Out) : (s.send o).siteCand = s.siteCand := rfl
@[simp] theorem State.send_isleFail (o : Out) : (s.send o).isleFail = s.isleFail := rfl
@[simp] theorem State.send_edgeFail (o : Out) : (s.send o).edgeFail = s.edgeFail := rfl
@[simp] theorem State.send_repairQ (o : Out) : (s.send o).repairQ = s.repairQ := rfl
@[simp] theorem State.send_isleDue (o : Out) : (s.send o).isleDue = s.isleDue := rfl
@[simp] theorem State.send_resup (o : Out) : (s.send o).resup = s.resup := rfl
@[simp] theorem State.send_repRecs (o : Out) : (s.send o).repRecs = s.repRecs := rfl
@[simp] theorem State.send_repRoom (o : Out) : (s.send o).repRoom = s.repRoom := rfl
@[simp] theorem State.send_pw (o : Out) : (s.send o).pw = s.pw := rfl
@[simp] theorem State.send_heat (o : Out) : (s.send o).heat = s.heat := rfl
@[simp] theorem State.send_rings (o : Out) : (s.send o).rings = s.rings := rfl
@[simp] theorem State.send_d3 (o : Out) : (s.send o).d3 = s.d3 := rfl
@[simp] theorem State.send_pollFrom (o : Out) : (s.send o).pollFrom = s.pollFrom := rfl
@[simp] theorem State.send_linkUp (o : Out) : (s.send o).linkUp = s.linkUp := rfl
@[simp] theorem State.send_subq (o : Out) : (s.send o).subq = s.subq := rfl
@[simp] theorem State.send_fabric (o : Out) : (s.send o).fabric = s.fabric := rfl
@[simp] theorem State.send_sync (o : Out) : (s.send o).sync = s.sync := rfl
@[simp] theorem State.send_net (o : Out) : (s.send o).net = s.net := rfl
@[simp] theorem State.send_flows (o : Out) : (s.send o).flows = s.flows := rfl
@[simp] theorem State.send_netId (o : Out) : (s.send o).netId = s.netId := rfl
@[simp] theorem State.send_links (o : Out) : (s.send o).links = s.links := rfl
@[simp] theorem State.send_strait (o : Out) : (s.send o).strait = s.strait := rfl
@[simp] theorem State.send_chMap (o : Out) : (s.send o).chMap = s.chMap := rfl
@[simp] theorem State.send_stag (o : Out) : (s.send o).stag = s.stag := rfl
@[simp] theorem State.send_central (o : Out) : (s.send o).central = s.central := rfl
@[simp] theorem State.send_sideQ (o : Out) : (s.send o).sideQ = s.sideQ := rfl
@[simp] theorem State.send_alarms (o : Out) : (s.send o).alarms = s.alarms := rfl
@[simp] theorem State.send_seq (o : Out) : (s.send o).seq = s.seq := rfl
@[simp] theorem State.send_cmdKey (o : Out) : (s.send o).cmdKey = s.cmdKey := rfl
@[simp] theorem State.send_secRec (o : Out) : (s.send o).secRec = s.secRec := rfl
@[simp] theorem State.send_tagFails (o : Out) : (s.send o).tagFails = s.tagFails := rfl
@[simp] theorem State.send_lockAt (o : Out) : (s.send o).lockAt = s.lockAt := rfl
@[simp] theorem State.send_warnAt (o : Out) : (s.send o).warnAt = s.warnAt := rfl
@[simp] theorem State.send_meas (o : Out) : (s.send o).meas = s.meas := rfl
@[simp] theorem State.send_debugCount (o : Out) : (s.send o).debugCount = s.debugCount := rfl
@[simp] theorem State.send_fwu (o : Out) : (s.send o).fwu = s.fwu := rfl
@[simp] theorem State.send_restarts (o : Out) : (s.send o).restarts = s.restarts := rfl
@[simp] theorem State.send_tx (o : Out) : (s.send o).tx = s.tx := rfl
@[simp] theorem State.send_chain (o : Out) : (s.send o).chain = s.chain := rfl
@[simp] theorem State.send_spdm (o : Out) : (s.send o).spdm = s.spdm := rfl
@[simp] theorem State.send_sess (o : Out) : (s.send o).sess = s.sess := rfl
@[simp] theorem State.send_ide (o : Out) : (s.send o).ide = s.ide := rfl
@[simp] theorem State.send_ideKeys (o : Out) : (s.send o).ideKeys = s.ideKeys := rfl
@[simp] theorem State.send_eid (o : Out) : (s.send o).eid = s.eid := rfl
@[simp] theorem State.send_icAt (o : Out) : (s.send o).icAt = s.icAt := rfl
@[simp] theorem State.send_free (o : Out) : (s.send o).free = s.free := rfl
@[simp] theorem State.send_accEpoch (o : Out) : (s.send o).accEpoch = s.accEpoch := rfl
@[simp] theorem State.send_pending (o : Out) : (s.send o).pending = s.pending := rfl

end Sys2Proof.Machine
end

