-- ==== Sys2Proof/Laws/Ops.lean ====
section
/-! SUPPORT. What the shared operations over sparse maps, registers and memory do. -/
namespace Sys2Proof.Machine

/-! ## Sparse maps -/

section
variable {α : Type}

@[simp] theorem fget_nil (d : α) (i : Nat) : fget d [] i = d := rfl

theorem fget_fins (d : α) (m : FMap α) (i j : Nat) (v : α) : fget d (fins m i v) j = if j = i then v else fget d m j := by
  induction m with
  | nil => simp only [fins, fget, eq_comm]
  | cons p m ih =>
    obtain ⟨k, u⟩ := p
    by_cases h1 : i < k
    · simp only [fins, h1, if_true, fget]
      by_cases h : j = i
      · simp [h]
      · simp [h, Ne.symm h]
    · by_cases h2 : i = k
      · subst h2
        simp only [fins, h1, if_false, if_true, fget]
        by_cases h : j = i
        · simp [h]
        · simp [h, Ne.symm h]
      · simp only [fins, h1, h2, if_false, fget, ih]
        by_cases h : j = i
        · subst h; simp [Ne.symm h2]
        · simp [h]

end

section
variable {α : Type}

theorem fget_of_lt (d : α) : ∀ (m : FMap α) (i : Nat), (∀ p ∈ m, i < p.1) → fget d m i = d
  | [], _, _ => rfl
  | p :: m, i, h => by
    obtain ⟨k, v⟩ := p
    have hk : i < k := h (k, v) (by simp)
    have hm := fget_of_lt d m i (fun q hq => h q (by simp [hq]))
    simp only [fget]
    rw [if_neg (by omega), hm]

theorem fget_ferase (d : α) (m : FMap α) (i j : Nat) : fget d (ferase m i) j = if j = i then d else fget d m j := by
  induction m with
  | nil => simp [ferase]
  | cons p m ih =>
    obtain ⟨k, u⟩ := p
    simp only [ferase]
    by_cases h : k = i
    · subst h
      simp only [if_true, ih, fget]
      by_cases hj : j = k
      · simp [hj]
      · simp [hj, Ne.symm hj]
    · simp only [h, if_false, fget, ih]
      by_cases hj : j = i
      · subst hj; simp [h]
      · simp [hj]

/-- A sparse map after a key is set. -/
theorem fget_fset [DecidableEq α] (d : α) (m : FMap α) (i j : Nat) (v : α) :
    fget d (fset d m i v) j = if j = i then v else fget d m j := by
  unfold fset
  split
  · rw [fget_ferase]; simp_all
  · exact fget_fins d m i j v

/-- The key just set reads as set. -/
@[simp] theorem fget_fset_self [DecidableEq α] (d : α) (m : FMap α) (i : Nat) (v : α) : fget d (fset d m i v) i = v := by
  simp [fget_fset]

/-- Another key is not disturbed, whatever the default. -/
theorem fget_fset_ne [DecidableEq α] (d e : α) (m : FMap α) (i j : Nat) (v : α) (h : j ≠ i) : fget d (fset e m i v) j = fget d m j := by
  unfold fset
  split
  · rw [fget_ferase, if_neg h]
  · rw [fget_fins, if_neg h]

end

/-! ## Registers -/

@[simp] theorem State.reg_setReg_ne (s : State) (r q : Nat) (v : Word) (h : q ≠ r) : (s.setReg r v).reg q = s.reg q :=
  fget_fset_ne _ _ _ _ _ _ h

@[simp] theorem State.reg_setReg_self (s : State) (r : Nat) (v : Word) : (s.setReg r v).reg r = v := by
  simp [State.reg, State.setReg]

/-! ## Units -/

@[simp] theorem State.core_setCore (s : State) (c : CoreId) (k : Core) : (s.setCore c k).core c = k := by simp [State.core, State.setCore]
@[simp] theorem State.core_setCore_ne (s : State) (c d : CoreId) (k : Core) (h : d ≠ c) : (s.setCore c k).core d = s.core d :=
  fget_fset_ne _ _ _ _ _ _ h
@[simp] theorem State.arr_setArr (s : State) (i : Nat) (a : Arr) : (s.setArr i a).arr i = a := by simp [State.arr, State.setArr]
@[simp] theorem State.arr_setArr_ne (s : State) (i j : Nat) (a : Arr) (h : j ≠ i) : (s.setArr i a).arr j = s.arr j :=
  fget_fset_ne _ _ _ _ _ _ h
@[simp] theorem State.part_setPart (s : State) (p : Nat) (q : Part) : (s.setPart p q).part p = q := by simp [State.part, State.setPart]
@[simp] theorem State.part_setPart_ne (s : State) (p r : Nat) (q : Part) (h : r ≠ p) : (s.setPart p q).part r = s.part r :=
  fget_fset_ne _ _ _ _ _ _ h
@[simp] theorem State.req_setReq (s : State) (e : Nat) (r : Req) : (s.setReq e r).req e = r := by simp [State.req, State.setReq]
@[simp] theorem State.req_setReq_ne (s : State) (e f : Nat) (r : Req) (h : f ≠ e) : (s.setReq e r).req f = s.req f :=
  fget_fset_ne _ _ _ _ _ _ h

/-- A register other than the one written. -/
@[simp] theorem State.reg_setRegN_ne (s : State) (r q v : Nat) (h : q ≠ r) : (s.setRegN r v).reg q = s.reg q :=
  s.reg_setReg_ne r q _ h

/-- A field written leaves every other register. -/
@[simp] theorem State.reg_setFld_ne (s : State) (r hi lo v q : Nat) (h : q ≠ r) : (s.setFld r hi lo v).reg q = s.reg q :=
  s.reg_setReg_ne r q _ h

/-! ## Memory -/

theorem mget_eq (m : List Host.Cell) (a : Nat) : mget m a = fget memDefault m a := rfl

theorem memory_wf_cons (c : Host.Cell) (m : List Host.Cell) :
    Memory.wf (c :: m) = true ↔ c.2 ≠ memDefault ∧ (∀ d ∈ m, c.1 < d.1) ∧ Memory.wf m = true := by
  simp [Memory.wf, and_assoc]

theorem Memory.wf_sub {m n : List Host.Cell} (h : Memory.wf m = true) (hs : n.Sublist m) : Memory.wf n = true := by
  induction hs with
  | slnil => exact h
  | cons a _ ih => exact ih ((memory_wf_cons _ _).1 h).2.2
  | cons_cons a hs ih =>
    obtain ⟨h1, h2, h3⟩ := (memory_wf_cons _ _).1 h
    exact (memory_wf_cons _ _).2 ⟨h1, fun d hd => h2 d (hs.subset hd), ih h3⟩

theorem Memory.wf_append {m n : List Host.Cell} (hm : Memory.wf m = true) (hn : Memory.wf n = true)
    (h : ∀ a ∈ m, ∀ b ∈ n, a.1 < b.1) : Memory.wf (m ++ n) = true := by
  induction m with
  | nil => exact hn
  | cons c m ih =>
    obtain ⟨h1, h2, h3⟩ := (memory_wf_cons _ _).1 hm
    refine (memory_wf_cons _ _).2 ⟨h1, ?_, ih h3 (fun a ha => h a (by simp [ha]))⟩
    intro d hd
    rcases List.mem_append.1 hd with hd | hd
    · exact h2 d hd
    · exact h c (by simp) d hd

theorem cellsOf_wf : ∀ (bs : Bytes) (a : Nat), Memory.wf (cellsOf a bs) = true ∧ ∀ c ∈ cellsOf a bs, a ≤ c.1 ∧ c.1 < a + bs.length
  | [], a => by simp [cellsOf, Memory.wf]
  | b :: bs, a => by
    obtain ⟨h1, h2⟩ := cellsOf_wf bs (a + 1)
    simp only [cellsOf]
    split
    · refine ⟨h1, fun c hc => ?_⟩
      have := h2 c hc
      simp only [List.length_cons]
      omega
    · next hb =>
      refine ⟨(memory_wf_cons _ _).2 ⟨hb, fun d hd => ?_, h1⟩, fun c hc => ?_⟩
      · have := h2 d hd
        simp only
        omega
      · simp only [List.length_cons]
        rcases List.mem_cons.1 hc with rfl | hc
        · simp
        · have := h2 c hc
          omega

/-- A write keeps the canonical form of memory. -/
theorem Memory.wf_mput (m : List Host.Cell) (a : Nat) (bs : Bytes) (h : Memory.wf m = true) : Memory.wf (mput m a bs) = true := by
  unfold mput
  obtain ⟨h1, h2⟩ := cellsOf_wf bs a
  refine Memory.wf_append (Memory.wf_append (Memory.wf_sub h List.filter_sublist) h1 ?_) (Memory.wf_sub h List.filter_sublist) ?_
  · intro x hx y hy
    have := (List.mem_filter.1 hx).2
    have := h2 y hy
    simp_all
    omega
  · intro x hx y hy
    have hy' := (List.mem_filter.1 hy).2
    rcases List.mem_append.1 hx with hx | hx
    · have := (List.mem_filter.1 hx).2
      simp_all
      omega
    · have := h2 x hx
      simp_all
      omega

/-- Every run of bytes written keeps the canonical form. -/
theorem State.wr_wf (s : State) (a : Nat) (bs : Bytes) (h : Memory.wf s.mem = true) : Memory.wf (s.wr a bs).mem = true :=
  Memory.wf_mput _ _ _ h

/-- A part of memory keeps the canonical form. -/
theorem Memory.wf_filter (m : List Host.Cell) (p : Host.Cell → Bool) (h : Memory.wf m = true) : Memory.wf (m.filter p) = true :=
  Memory.wf_sub h List.filter_sublist

/-- Memory at reset has the canonical form. -/
theorem State.reset_wf : Memory.wf State.reset.mem = true := rfl

theorem mget_append (m n : List Host.Cell) (a : Nat) (h : ∀ c ∈ m, c.1 ≠ a) : mget (m ++ n) a = mget n a := by
  induction m with
  | nil => rfl
  | cons c m ih =>
    obtain ⟨k, v⟩ := c
    have hk : k ≠ a := h (k, v) (by simp)
    simpa [mget, fget, hk] using ih (fun d hd => h d (by simp [hd]))

theorem mget_append_left (m n : List Host.Cell) (a : Nat) (h : ∀ c ∈ n, c.1 ≠ a) : mget (m ++ n) a = mget m a := by
  induction m with
  | nil =>
    have := mget_append n [] a h
    simpa using this
  | cons c m ih =>
    obtain ⟨k, v⟩ := c
    simp only [mget, List.cons_append, fget] at *
    split
    · rfl
    · exact ih

theorem mget_filter (m : List Host.Cell) (p : Nat → Bool) (a : Nat) (h : p a = true) : mget (m.filter (fun c => p c.1)) a = mget m a := by
  induction m with
  | nil => rfl
  | cons c m ih =>
    obtain ⟨k, v⟩ := c
    by_cases hp : p k = true
    · simp only [List.filter, hp, mget, fget] at *
      rw [ih]
    · have hk : k ≠ a := by rintro rfl; exact hp h
      simp only [List.filter, hp, mget, fget, hk, if_false] at *
      exact ih

theorem mget_cellsOf : ∀ (bs : Bytes) (a i : Nat), i < bs.length → mget (cellsOf a bs) (a + i) = bs.getD i memDefault
  | [], _, _, h => by simp at h
  | b :: bs, a, 0, _ => by
    simp only [cellsOf]
    split
    · next hb =>
      rw [mget_eq, fget_of_lt]
      · simp [hb]
      · intro p hp
        have := (cellsOf_wf bs (a + 1)).2 p hp
        omega
    · simp [mget, fget]
  | b :: bs, a, i + 1, h => by
    have ih := mget_cellsOf bs (a + 1) i (by simpa using h)
    have e : a + (i + 1) = a + 1 + i := by omega
    rw [e]
    simp only [cellsOf, List.getD_cons_succ]
    split
    · exact ih
    · simp only [mget, fget] at *
      rw [if_neg (by omega)]
      exact ih

/-- A byte inside a run just written reads as written. -/
theorem mget_mput_in (m : List Host.Cell) (a : Nat) (bs : Bytes) (i : Nat) (h : i < bs.length) :
    mget (mput m a bs) (a + i) = bs.getD i memDefault := by
  unfold mput
  rw [mget_append_left, mget_append]
  · exact mget_cellsOf bs a i h
  · intro c hc
    have := (List.mem_filter.1 hc).2
    simp at this
    omega
  · intro c hc
    have := (List.mem_filter.1 hc).2
    simp at this
    omega

/-- A byte outside a run just written is not disturbed. -/
theorem mget_mput_out (m : List Host.Cell) (a : Nat) (bs : Bytes) (b : Nat) (h : b < a ∨ a + bs.length ≤ b) :
    mget (mput m a bs) b = mget m b := by
  unfold mput
  have hc := (cellsOf_wf bs a).2
  rcases h with h | h
  · rw [List.append_assoc, mget_append_left]
    · exact mget_filter m (fun k => decide (k < a)) b (by simpa using h)
    · intro c hx
      rcases List.mem_append.1 hx with hx | hx
      · have := hc c hx; omega
      · have := (List.mem_filter.1 hx).2
        simp at this
        omega
  · rw [mget_append]
    · exact mget_filter m (fun k => decide (a + bs.length ≤ k)) b (by simpa using h)
    · intro c hx
      rcases List.mem_append.1 hx with hx | hx
      · have := (List.mem_filter.1 hx).2
        simp at this
        omega
      · have := hc c hx; omega

end Sys2Proof.Machine
end

