-- ==== Sys2Proof/Laws/Frames.lean ====
section
/-! SUPPORT. What the event log's operations may change: one frame for each, which composes. -/
namespace Sys2Proof.Machine

/-! ## Composing frames -/

theorem RegsLog.refl (s : State) (rs : List Nat) : RegsLog s s rs := fun _ _ _ => rfl

theorem RegsLog.weaken {s t : State} {rs qs : List Nat} (h : RegsLog s t rs) (hs : ∀ r ∈ rs, r ∈ qs) : RegsLog s t qs :=
  fun r hr hd => h r (fun x => hr (hs r x)) hd

theorem RegsLog.trans {s t u : State} {rs : List Nat} (h : RegsLog s t rs) (k : RegsLog t u rs) : RegsLog s u rs :=
  fun r hr hd => (k r hr hd).trans (h r hr hd)

theorem LogFrame.refl (s : State) (rs : List Nat) : LogFrame s s rs := ⟨rfl, RegsLog.refl s rs⟩

theorem LogFrame.weaken {s t : State} {rs qs : List Nat} (h : LogFrame s t rs) (hs : ∀ r ∈ rs, r ∈ qs) : LogFrame s t qs :=
  ⟨h.1, h.2.weaken hs⟩

theorem LogFrame.trans {s t u : State} {rs : List Nat} (h : LogFrame s t rs) (k : LogFrame t u rs) : LogFrame s u rs := by
  refine ⟨?_, h.2.trans k.2⟩
  have h1 := h.1
  have k1 := k.1
  rw [k1, h1]

/-- A register of the list, set. -/
theorem LogFrame.setReg (s : State) (r : Nat) (v : Word) (rs : List Nat) (h : r ∈ rs) : LogFrame s (s.setReg r v) rs :=
  ⟨rfl, fun q hq _ => s.reg_setReg_ne r q v (fun e => hq (e ▸ h))⟩

theorem LogFrame.setRegN (s : State) (r v : Nat) (rs : List Nat) (h : r ∈ rs) : LogFrame s (s.setRegN r v) rs := LogFrame.setReg s r _ rs h

theorem LogFrame.setFld (s : State) (r hi lo v : Nat) (rs : List Nat) (h : r ∈ rs) : LogFrame s (s.setFld r hi lo v) rs :=
  LogFrame.setReg s r _ rs h

theorem LogFrame.orReg (s : State) (r v : Nat) (rs : List Nat) (h : r ∈ rs) : LogFrame s (s.orReg r v) rs :=
  ⟨rfl, fun q hq _ => s.reg_setReg_ne r q _ (fun e => hq (e ▸ h))⟩

theorem LogFrame.satFld (s : State) (r hi lo n : Nat) (rs : List Nat) (h : r ∈ rs) : LogFrame s (s.satFld r hi lo n) rs :=
  LogFrame.setReg s r _ rs h

theorem LogFrame.sat32 (s : State) (r n : Nat) (rs : List Nat) (h : r ∈ rs) : LogFrame s (s.sat32 r n) rs := LogFrame.setReg s r _ rs h

theorem LogFrame.setReg64 (s : State) (r v : Nat) (rs : List Nat) (h : r ∈ rs) (h' : r + 1 ∈ rs) : LogFrame s (s.setReg64 r v) rs :=
  (LogFrame.setRegN s r v rs h).trans (LogFrame.setRegN _ (r + 1) _ rs h')

theorem LogFrame.add64 (s : State) (r n : Nat) (rs : List Nat) (h : r ∈ rs) (h' : r + 1 ∈ rs) : LogFrame s (s.add64 r n) rs :=
  LogFrame.setReg64 s r _ rs h h'

/-- Every field but those of the log is as before. -/
theorem LogFrame.fields {s t : State} {rs : List Nat} (h : LogFrame s t rs) :
    t.mem = s.mem ∧ t.cores = s.cores ∧ t.arrs = s.arrs ∧ t.parts = s.parts ∧ t.reqs = s.reqs ∧ t.pending = s.pending ∧ t.cyc = s.cyc ∧
    t.out = s.out ∧ t.free = s.free := by
  rw [h.1]; simp

/-! ## The event log -/

/-- A discard changes drop counters only. -/
theorem State.countDrop_frame (s : State) (d : Option EvRec) (host side : Bool) : LogFrame s (s.countDrop d host side) [] := by
  unfold State.countDrop
  cases d with
  | none => exact LogFrame.refl s []
  | some r =>
    simp only
    split
    · exact LogFrame.refl s []
    · have step : ∀ (u : State) (b : Bool) (k n : Nat), dropReg k → LogFrame u (if b then u.sat32 k n else u) [] := by
        intro u b k n hk
        cases b
        · exact LogFrame.refl u []
        · exact ⟨rfl, fun q _ hq => u.reg_setReg_ne k q _ (fun e => hq (e ▸ hk))⟩
      refine (step s host _ 1 ?_).trans (step _ side _ 1 ?_)
      · unfold dropReg rTel; omega
      · unfold dropReg rTel; omega

theorem LogFrame.sideQ (s : State) (l : LogQ) (rs : List Nat) : LogFrame s { s with sideQ := l } rs := ⟨rfl, RegsLog.refl s rs⟩
theorem LogFrame.central (s : State) (l : LogQ) (n : Nat) (rs : List Nat) : LogFrame s { s with central := l, seq := n } rs :=
  ⟨rfl, RegsLog.refl s rs⟩
theorem LogFrame.stag (s : State) (l : FMap LogQ) (rs : List Nat) : LogFrame s { s with stag := l } rs := ⟨rfl, RegsLog.refl s rs⟩
theorem LogFrame.alarms (s : State) (l : List AlarmRec) (n : Nat) (rs : List Nat) : LogFrame s { s with alarms := l, seq := n } rs :=
  ⟨rfl, RegsLog.refl s rs⟩

theorem State.toSideband_frame (s : State) (r : EvRec) : LogFrame s (s.toSideband r) [] := by
  unfold State.toSideband
  split
  · exact (LogFrame.sideQ s _ []).trans (State.countDrop_frame _ _ _ _)
  · exact LogFrame.refl s []

theorem State.toCentral_frame (s : State) (r : EvRec) : LogFrame s (s.toCentral r) [] :=
  ((LogFrame.central s _ _ []).trans (State.countDrop_frame _ _ _ _)).trans (State.toSideband_frame _ _)

theorem State.toStaging_frame (s : State) (isle : Nat) (r : EvRec) : LogFrame s (s.toStaging isle r) [] :=
  (LogFrame.stag s _ []).trans (State.countDrop_frame _ _ _ _)

/-- A record logged changes the event log only. -/
theorem State.log_frame (s : State) (r : EvRec) (rs : List Nat) : LogFrame s (s.log r) rs := by
  refine LogFrame.weaken (rs := []) ?_ (by simp)
  unfold State.log
  simp only
  split
  · exact State.toStaging_frame _ _ _
  · exact State.toCentral_frame _ _

theorem State.toAlarmQ_frame (s : State) (r : EvRec) (rs : List Nat) : LogFrame s (s.toAlarmQ r) rs := by
  unfold State.toAlarmQ
  simp only
  split
  · exact LogFrame.alarms s _ _ rs
  · split
    · exact LogFrame.alarms s _ s.seq rs
    · split
      · exact LogFrame.alarms s _ s.seq rs
      · exact LogFrame.alarms s _ s.seq rs

/-- An alarm changes its summary bit, its counter and the event log. -/
theorem State.alarm_frame (s : State) (bit : Nat) (r : EvRec) (rs : List Nat) (h : rTel 8 ∈ rs) (h' : rTel (0x10 + bit) ∈ rs) :
    LogFrame s (s.alarm bit r) rs := by
  unfold State.alarm
  exact ((LogFrame.orReg s _ _ rs h).trans (LogFrame.sat32 _ _ _ rs h')).trans (State.toAlarmQ_frame _ _ _)

/-- An event changes its event register and the event log. -/
theorem State.isleEvent_frame (s : State) (isle reg bit cls part site a b c : Nat) (rs : List Nat) (h : rIsle isle reg ∈ rs) :
    LogFrame s (s.isleEvent isle reg bit cls part site a b c) rs := by
  unfold State.isleEvent
  exact (LogFrame.orReg s _ _ rs h).trans (State.log_frame _ _ _)

theorem State.siteEvent_frame (s : State) (c : CoreId) (reg bit cls a b c' : Nat) (rs : List Nat)
    (h : rIsle (s.isleOf c) reg ∈ rs) : LogFrame s (s.siteEvent c reg bit cls a b c') rs :=
  State.isleEvent_frame s _ _ _ _ _ _ _ _ _ rs h

/-- An update of one core. -/
theorem State.updCore_only (s : State) (c : CoreId) (f : Core → Core) : OnlyCore s (s.updCore c f) c :=
  ⟨rfl, fun d hd => s.core_setCore_ne c d _ (by simpa using hd)⟩

/-- An update of one partition. -/
theorem State.updPart_only (s : State) (p : Nat) (f : Part → Part) : OnlyPart s (s.updPart p f) p :=
  ⟨rfl, fun q hq => s.part_setPart_ne p q _ (by simpa using hq)⟩

end Sys2Proof.Machine
end

