-- ==== Sys2Proof/Laws/PerInstr.lean ====
section
/-! SUPPORT. One lemma per command about its encoding: where a command has a slot, an opcode and field values (`instrFields`), the slot's table
lists one field for each value, and what the command observes as it runs takes no part in them. -/
namespace Sys2Proof.Laws.Slots

/-- The fields of a command's encoding match the table of its slot and opcode. -/
def Statement (i : Instr) : Prop :=
  instrFields (bareInstr i) = instrFields i ∧
    ∀ sl op vs, instrFields i = some (sl, op, vs) → ∃ fs, fieldsOf sl op = some fs ∧ fs.length = vs.length

/-- A command without an encoding. -/
theorem of_none {i : Instr} (h : instrFields i = none) (hb : bareInstr i = i) : Statement i :=
  ⟨by rw [hb], fun sl op vs h' => by simp [h] at h'⟩

/-- A command with one. -/
theorem of_some {i : Instr} {sl : Slot} {op : Nat} {vs : List Nat} {fs : List (Nat × Nat)} (h : instrFields i = some (sl, op, vs))
    (hb : instrFields (bareInstr i) = instrFields i) (hf : fieldsOf sl op = some fs) (hl : fs.length = vs.length) : Statement i :=
  ⟨hb, fun sl' op' vs' h' => by
    rw [h] at h'
    cases h'
    exact ⟨fs, hf, hl⟩⟩

theorem ctlPld (core : CoreId) (ta : Ta) (pt pb wo : Nat) (errs : List LineErr) : Statement (.ctlPld core ta pt pb wo errs) := of_some rfl rfl rfl rfl
theorem ctlPadd (core : CoreId) (pt : Nat) (imm : Int) : Statement (.ctlPadd core pt imm) := of_some rfl rfl rfl rfl
theorem ctlLoop (core : CoreId) (lc count len : Nat) : Statement (.ctlLoop core lc count len) := of_some rfl rfl rfl rfl
theorem ctlJump (core : CoreId) (target : Nat) : Statement (.ctlJump core target) := of_some rfl rfl rfl rfl
theorem ctlFlead (core : CoreId) (u f : Nat) : Statement (.ctlFlead core u f) := of_some rfl rfl rfl rfl
theorem ctlLane (core : CoreId) (unit lane tensor : Nat) (dg : Bool) : Statement (.ctlLane core unit lane tensor dg) := of_some rfl rfl rfl rfl
theorem cimMvm (core : CoreId) (ta : Ta) (eng first g w0 n t : Nat) (h : Bool) (fmt a : Nat) (obs : MvmObs) : Statement (.cimMvm core ta eng first g w0 n t h fmt a obs) := of_some rfl rfl rfl rfl
theorem masterCopyFetchLine (core : CoreId) (eng k : Nat) (err : BitVec 544) : Statement (.masterCopyFetchLine core eng k err) := of_none rfl rfl
theorem rewriteComplete (core : CoreId) (eng : Nat) (obs : List Conv) : Statement (.rewriteComplete core eng obs) := of_none rfl rfl
theorem cimPre (core : CoreId) (ta : Ta) (eng t mode ps pe : Nat) (errs : List LineErr) : Statement (.cimPre core ta eng t mode ps pe errs) := of_some rfl rfl rfl rfl
theorem cimOut (core : CoreId) (ta : Ta) (eng t dest : Nat) (clr : Bool) (a pd : Nat) (corr unc : List Nat) : Statement (.cimOut core ta eng t dest clr a pd corr unc) := of_some rfl rfl rfl rfl
theorem cimCal (core : CoreId) (emask amask : Nat) (obs : List CalObs) : Statement (.cimCal core emask amask obs) := of_some rfl rfl rfl rfl
theorem calStarved (isle site arr : Nat) : Statement (.calStarved isle site arr) := of_none rfl rfl
theorem icCalibrationRound (isle site arr : Nat) (obs : RoundObs) : Statement (.icCalibrationRound isle site arr obs) := of_none rfl rfl
theorem spareArrayReplaced (isle site arr : Nat) (levels : List LevelMeas) : Statement (.spareArrayReplaced isle site arr levels) := of_none rfl rfl
theorem attPass (core : CoreId) (acc : Access) (lane asg h0 nh pp po ql : Nat) (tray exp : Bool) : Statement (.attPass core acc lane asg h0 nh pp po ql tray exp) := of_some rfl rfl rfl rfl
theorem attMerge (core : CoreId) (acc : Access) (pa pb po q : Nat) (norm exp : Bool) (lane : Nat) : Statement (.attMerge core acc pa pb po q norm exp lane) := of_some rfl rfl rfl rfl
theorem attGemv (core : CoreId) (acc : Access) (pw fmt g w0 n a pd : Nat) (init : Bool) (h : Bool) : Statement (.attGemv core acc pw fmt g w0 n a pd init h) := of_some rfl rfl rfl rfl
theorem vecLd (core : CoreId) (ta : Ta) (ps a n : Nat) (corr unc : List Nat) : Statement (.vecLd core ta ps a n corr unc) := of_some rfl rfl rfl rfl
theorem vecSt (core : CoreId) (ta : Ta) (pd a n : Nat) (errs : List LineErr) : Statement (.vecSt core ta pd a n errs) := of_some rfl rfl rfl rfl
theorem vecAlu (core : CoreId) (acc : Access) (fn fmt a b c d n : Nat) (bb : Bool) : Statement (.vecAlu core acc fn fmt a b c d n bb) := of_some rfl rfl rfl rfl
theorem vecTr (core : CoreId) (acc : Access) (fn a b d n : Nat) : Statement (.vecTr core acc fn a b d n) := of_some rfl rfl rfl rfl
theorem vecXl (core : CoreId) (acc : Access) (fn fmt a n d dw : Nat) : Statement (.vecXl core acc fn fmt a n d dw) := of_some rfl rfl rfl rfl
theorem vecQnt (core : CoreId) (acc : Access) (fmt sf sm sc ef pe cs a pd nb j0 : Nat) (zh : Bool) : Statement (.vecQnt core acc fmt sf sm sc ef pe cs a pd nb j0 zh) := of_some rfl rfl rfl rfl
theorem vecRope (core : CoreId) (acc : Access) (a d f nh lane poff : Nat) : Statement (.vecRope core acc a d f nh lane poff) := of_some rfl rfl rfl rfl
theorem scan (core : CoreId) (acc : Access) (lane a b d n : Nat) : Statement (.scan core acc lane a b d n) := of_some rfl rfl rfl rfl
theorem samplerMerge (core : CoreId) (acc : Access) (a b d : Nat) : Statement (.samplerMerge core acc a b d) := of_some rfl rfl rfl rfl
theorem draw (core : CoreId) (acc : Access) (lane a : Nat) : Statement (.draw core acc lane a) := of_some rfl rfl rfl rfl
theorem verify (core : CoreId) (acc : Access) (lane : Nat) : Statement (.verify core acc lane) := of_some rfl rfl rfl rfl
theorem xfrCp (core : CoreId) (ta : Ta) (ps pd n rt : Nat) (errs : List LineErr) : Statement (.xfrCp core ta ps pd n rt errs) := of_some rfl rfl rfl rfl
theorem xfrGather (core : CoreId) (ta : Ta) (pi pt n pd rt : Nat) (errs : List LineErr) : Statement (.xfrGather core ta pi pt n pd rt errs) := of_some rfl rfl rfl rfl
theorem xfrMapload (core : CoreId) (ta : Ta) (asg pc l : Nat) : Statement (.xfrMapload core ta asg pc l) := of_some rfl rfl rfl rfl
theorem xfrScatter (core : CoreId) (lane asg : Nat) (py : TrayPtr) (pc nb : Nat) : Statement (.xfrScatter core lane asg py pc nb) := of_some rfl rfl rfl rfl
theorem xfrRelease (core : CoreId) (amask : Nat) : Statement (.xfrRelease core amask) := of_some rfl rfl rfl rfl
theorem xfrSignal (core : CoreId) (ctr add : Nat) : Statement (.xfrSignal core ctr add) := of_some rfl rfl rfl rfl
theorem xfrEmit (core : CoreId) (lane : Nat) : Statement (.xfrEmit core lane) := of_some rfl rfl rfl rfl
theorem xfrDflush (core : CoreId) (lane : Nat) : Statement (.xfrDflush core lane) := of_some rfl rfl rfl rfl
theorem shfHazResume (isle site : Nat) : Statement (.shfHazResume isle site) := of_none rfl rfl
theorem uPortGrant (core : CoreId) (errs : List LineErr) : Statement (.uPortGrant core errs) := of_none rfl rfl
theorem shelfCorrectedWriteback (core : CoreId) (bay : Nat) : Statement (.shelfCorrectedWriteback core bay) := of_none rfl rfl
theorem uSlotGroupEnd (core : CoreId) (bays : List Nat) : Statement (.uSlotGroupEnd core bays) := of_none rfl rfl
theorem scoreEccUncorrectable (core : CoreId) (read : ScoreRead) : Statement (.scoreEccUncorrectable core read) := of_none rfl rfl
theorem scoreCodewordRewritten (core : CoreId) (codeword : Nat) (data : Bytes) : Statement (.scoreCodewordRewritten core codeword data) := of_none rfl rfl
theorem stallItemComplete (core : CoreId) (cause : Nat) : Statement (.stallItemComplete core cause) := of_none rfl rfl
theorem stop (part : Nat) : Statement (.stop part) := of_none rfl rfl
theorem go (part : Nat) : Statement (.go part) := of_none rfl rfl
theorem coreFreeze (wave : WaveAt) : Statement (.coreFreeze wave) := of_none rfl rfl
theorem coreResume (wave : WaveAt) : Statement (.coreResume wave) := of_none rfl rfl
theorem start (part : Nat) : Statement (.start part) := of_none rfl rfl
theorem beatBoundary (part : Nat) : Statement (.beatBoundary part) := of_none rfl rfl
theorem laneSheetIncomplete (part : Nat) : Statement (.laneSheetIncomplete part) := of_none rfl rfl
theorem laneSheetDelivery (core : CoreId) (lane : Nat) (data : Bytes) : Statement (.laneSheetDelivery core lane data) := of_none rfl rfl
theorem pauseFrame (part : Nat) : Statement (.pauseFrame part) := of_none rfl rfl
theorem pauseSlot (part slot : Nat) : Statement (.pauseSlot part slot) := of_none rfl rfl
theorem vc0FlitDelivery (core : CoreId) (line id : Nat) : Statement (.vc0FlitDelivery core line id) := of_none rfl rfl
theorem linkLineArrival (id : Nat) (err : BitVec 544) : Statement (.linkLineArrival id err) := of_none rfl rfl
theorem straitCrcCheck (isle edge : Nat) (flit : FlitAt) (err : BitVec 336) : Statement (.straitCrcCheck isle edge flit err) := of_none rfl rfl
theorem straitNak (isle edge : Nat) (flit : FlitAt) : Statement (.straitNak isle edge flit) := of_none rfl rfl
theorem straitRetryLate (isle edge id : Nat) : Statement (.straitRetryLate isle edge id) := of_none rfl rfl
theorem vc2LineDelivery (core : CoreId) (id : Nat) : Statement (.vc2LineDelivery core id) := of_none rfl rfl
theorem vc3MessageDelivery (id : Nat) : Statement (.vc3MessageDelivery id) := of_none rfl rfl
theorem refreshDebtTick (isle : Nat) : Statement (.refreshDebtTick isle) := of_none rfl rfl
theorem bankRefresh (core : CoreId) (bank : Nat) : Statement (.bankRefresh core bank) := of_none rfl rfl
theorem collisionRefreshDone (core : CoreId) : Statement (.collisionRefreshDone core) := of_none rfl rfl
theorem foregroundSegmentLine (core : CoreId) (line : Nat) (err : BitVec 544) : Statement (.foregroundSegmentLine core line err) := of_none rfl rfl
theorem backgroundClaim (core : CoreId) (err : BitVec 544) : Statement (.backgroundClaim core err) := of_none rfl rfl
theorem writeBufferDrain (core : CoreId) : Statement (.writeBufferDrain core) := of_none rfl rfl
theorem rowRetirement (core : CoreId) (bank row : Nat) : Statement (.rowRetirement core bank row) := of_none rfl rfl
theorem partitionReconfiguration (src : CmdSrc) (desc : Bytes) : Statement (.partitionReconfiguration src desc) := of_none rfl rfl
theorem loadHeaderRead (part : Nat) (header : Option Bytes) : Statement (.loadHeaderRead part header) := of_none rfl rfl
theorem loadTransferDone (part : Nat) (image : Option Bytes) : Statement (.loadTransferDone part image) := of_none rfl rfl
theorem loadProgrammed (part : Nat) : Statement (.loadProgrammed part) := of_none rfl rfl
theorem unload (part : Nat) : Statement (.unload part) := of_none rfl rfl
theorem partitionReset (part : Nat) (image : Option Bytes) : Statement (.partitionReset part image) := of_none rfl rfl
theorem enterDebugMode (src : CmdSrc) : Statement (.enterDebugMode src) := of_none rfl rfl
theorem debugExit (part : Nat) : Statement (.debugExit part) := of_none rfl rfl
theorem raisePowerLimit (src : CmdSrc) : Statement (.raisePowerLimit src) := of_none rfl rfl
theorem firmwareUpdate (src : CmdSrc) : Statement (.firmwareUpdate src) := of_none rfl rfl
theorem firmwareUpdateDone (img : ImageFacts) : Statement (.firmwareUpdateDone img) := of_none rfl rfl
theorem keyRotation (src : CmdSrc) (img : ImageFacts) : Statement (.keyRotation src img) := of_none rfl rfl
theorem sparePolicyOverride (src : CmdSrc) : Statement (.sparePolicyOverride src) := of_none rfl rfl
theorem processorRestart (src : CmdSrc) : Statement (.processorRestart src) := of_none rfl rfl
theorem lockoutExpiry : Statement (.lockoutExpiry) := of_none rfl rfl
theorem stage (part : Nat) : Statement (.stage part) := of_none rfl rfl
theorem stagingDataArrived (part off : Nat) (data : Option Bytes) : Statement (.stagingDataArrived part off data) := of_none rfl rfl
theorem stagingComplete (part : Nat) : Statement (.stagingComplete part) := of_none rfl rfl
theorem stagingShareWrite (rq : Requester) (part share : Nat) : Statement (.stagingShareWrite rq part share) := of_none rfl rfl
theorem swap (part : Nat) : Statement (.swap part) := of_none rfl rfl
theorem rollback (part : Nat) : Statement (.rollback part) := of_none rfl rfl
theorem release (part : Nat) : Statement (.release part) := of_none rfl rfl
theorem abandon (part : Nat) : Statement (.abandon part) := of_none rfl rfl
theorem rewriteWaveDone (part : Nat) (bad : Option Nat) : Statement (.rewriteWaveDone part bad) := of_none rfl rfl
theorem sheetAssembly (part : Nat) : Statement (.sheetAssembly part) := of_none rfl rfl
theorem hostPoll (reads : List PollRead) : Statement (.hostPoll reads) := of_none rfl rfl
theorem submit (fn ring : Nat) (record : Bytes) (prompt : Option (List Nat)) (bias : Option Bytes) : Statement (.submit fn ring record prompt bias) := of_none rfl rfl
theorem cancel (fn : Nat) (record : Bytes) : Statement (.cancel fn record) := of_none rfl rfl
theorem park (fn : Nat) (record : Bytes) : Statement (.park fn record) := of_none rfl rfl
theorem parkCopyDone (entry : Nat) : Statement (.parkCopyDone entry) := of_none rfl rfl
theorem resume (fn : Nat) (record : Bytes) : Statement (.resume fn record) := of_none rfl rfl
theorem resumePlaced (entry : Nat) (area : Option Bytes) : Statement (.resumePlaced entry area) := of_none rfl rfl
theorem drop (fn : Nat) (record : Bytes) : Statement (.drop fn record) := of_none rfl rfl
theorem parkExpiry (entry : Nat) : Statement (.parkExpiry entry) := of_none rfl rfl
theorem laneStateWordReceived (part lane : Nat) (word : Bytes) : Statement (.laneStateWordReceived part lane word) := of_none rfl rfl
theorem voidMessage (core : CoreId) (entry : Nat) : Statement (.voidMessage core entry) := of_none rfl rfl
theorem releaseComplete (entry : Nat) : Statement (.releaseComplete entry) := of_none rfl rfl
theorem deadlineCheck : Statement (.deadlineCheck) := of_none rfl rfl
theorem completionRecordWrite (fn ring : Nat) : Statement (.completionRecordWrite fn ring) := of_none rfl rfl
theorem msixModerationTimer (fn ring : Nat) : Statement (.msixModerationTimer fn ring) := of_none rfl rfl
theorem syncCounterAdd (ctr add : Nat) : Statement (.syncCounterAdd ctr add) := of_none rfl rfl
theorem syncCounterWrite (rq : Requester) (ctr : Nat) (v : Word) : Statement (.syncCounterWrite rq ctr v) := of_none rfl rfl
theorem dmaReadFailure (fn : Nat) (kind : RingKind) (q : Nat) : Statement (.dmaReadFailure fn kind q) := of_none rfl rfl
theorem ringControlWrite (fn : Nat) (kind : RingKind) (q : Nat) (v : Word) : Statement (.ringControlWrite fn kind q v) := of_none rfl rfl
theorem bar2Access (fn off len : Nat) (wr : Option Bytes) : Statement (.bar2Access fn off len wr) := of_none rfl rfl
theorem dbgWindowAccess (wr : Option Word) : Statement (.dbgWindowAccess wr) := of_none rfl rfl
theorem hostDrvVerWrite (fn : Nat) (v : Word) : Statement (.hostDrvVerWrite fn v) := of_none rfl rfl
theorem vfFlr (n : Nat) : Statement (.vfFlr n) := of_none rfl rfl
theorem pfFlr : Statement (.pfFlr) := of_none rfl rfl
theorem linkDown : Statement (.linkDown) := of_none rfl rfl
theorem d3hotEntry (fn : Nat) : Statement (.d3hotEntry fn) := of_none rfl rfl
theorem d0Return (fn : Nat) : Statement (.d0Return fn) := of_none rfl rfl
theorem linkTrained : Statement (.linkTrained) := of_none rfl rfl
theorem cfgTxBegin (rq : Requester) (id : Word) : Statement (.cfgTxBegin rq id) := of_none rfl rfl
theorem rwtWrite (rq : Requester) (addr : Nat) (v : Word) : Statement (.rwtWrite rq addr v) := of_none rfl rfl
theorem commit (rq : Requester) : Statement (.commit rq) := of_none rfl rfl
theorem transactionRollback (rq : Requester) : Statement (.transactionRollback rq) := of_none rfl rfl
theorem transactionTimeout (slot : Nat) : Statement (.transactionTimeout slot) := of_none rfl rfl
theorem reg64LowRead (rq : Requester) (addr : Nat) : Statement (.reg64LowRead rq addr) := of_none rfl rfl
theorem reg64LowWrite (rq : Requester) (addr : Nat) (v : Word) : Statement (.reg64LowWrite rq addr v) := of_none rfl rfl
theorem reg64HighWrite (rq : Requester) (addr : Nat) (v : Word) : Statement (.reg64HighWrite rq addr v) := of_none rfl rfl
theorem cimColStatRead (rq : Requester) (isle : Nat) : Statement (.cimColStatRead rq isle) := of_none rfl rfl
theorem registerWrite (rq : Requester) (addr : Nat) (v : Word) : Statement (.registerWrite rq addr v) := of_none rfl rfl
theorem powerLimitWrite (v : Word) : Statement (.powerLimitWrite v) := of_none rfl rfl
theorem parkRequest (isle : Nat) (on : Bool) : Statement (.parkRequest isle on) := of_none rfl rfl
theorem sysResetWarm (rq : Requester) (v : Word) : Statement (.sysResetWarm rq v) := of_none rfl rfl
theorem sysResetCold (rq : Requester) (v : Word) : Statement (.sysResetCold rq v) := of_none rfl rfl
theorem sidebandResetRequest (v : Word) : Statement (.sidebandResetRequest v) := of_none rfl rfl
theorem perstAssertion : Statement (.perstAssertion) := of_none rfl rfl
theorem inputPowerApplied : Statement (.inputPowerApplied) := of_none rfl rfl
theorem inputPowerLoss : Statement (.inputPowerLoss) := of_none rfl rfl
theorem auxComplete : Statement (.auxComplete) := of_none rfl rfl
theorem rootComplete (facts : RootFacts) : Statement (.rootComplete facts) := of_none rfl rfl
theorem islePowerUp (res : PowerUp) : Statement (.islePowerUp res) := of_none rfl rfl
theorem poweringComplete : Statement (.poweringComplete) := of_none rfl rfl
theorem testingComplete (test : SelfTest) : Statement (.testingComplete test) := of_none rfl rfl
theorem mappedComplete : Statement (.mappedComplete) := of_none rfl rfl
theorem stateLimitExceeded : Statement (.stateLimitExceeded) := of_none rfl rfl
theorem pllLockLoss (pll : Pll) : Statement (.pllLockLoss pll) := of_none rfl rfl
theorem powerControlPeriod (inW inCv : Nat) (draws : List (Nat × Nat)) : Statement (.powerControlPeriod inW inCv draws) := of_none rfl rfl
theorem crackCheck (drops : List PhaseDrop) : Statement (.crackCheck drops) := of_none rfl rfl
theorem phaseRetired (isle rail phase : Nat) : Statement (.phaseRetired isle rail phase) := of_none rfl rfl
theorem brickFailed : Statement (.brickFailed) := of_none rfl rfl
theorem railOvervoltage (isle rail : Nat) : Statement (.railOvervoltage isle rail) := of_none rfl rfl
theorem senseLost (isle rail : Nat) : Statement (.senseLost isle rail) := of_none rfl rfl
theorem isolated (isle : Nat) (vs : Bool) : Statement (.isolated isle vs) := of_none rfl rfl
theorem curLimit (u : CurUnit) : Statement (.curLimit u) := of_none rfl rfl
theorem curLimitRelease (u : CurUnit) (amps : Nat) : Statement (.curLimitRelease u amps) := of_none rfl rfl
theorem inputSample (watts : Nat) : Statement (.inputSample watts) := of_none rfl rfl
theorem groupWait (isle : Nat) : Statement (.groupWait isle) := of_none rfl rfl
theorem isleSwitchOn (isle : Nat) : Statement (.isleSwitchOn isle) := of_none rfl rfl
theorem unparkComplete (swept : IsleSweep) : Statement (.unparkComplete swept) := of_none rfl rfl
theorem sensorSample (isle : Nat) (readings : List Int) : Statement (.sensorSample isle readings) := of_none rfl rfl
theorem sensorSelfCheck (isle : Nat) (failed : List Nat) : Statement (.sensorSelfCheck isle failed) := of_none rfl rfl
theorem sensorSpareMapped (isle spare : Nat) (reading : Int) : Statement (.sensorSpareMapped isle spare reading) := of_none rfl rfl
theorem hwDutyTick (isle : Nat) : Statement (.hwDutyTick isle) := of_none rfl rfl
theorem thermalForecast (fs : List (Nat × Int)) : Statement (.thermalForecast fs) := of_none rfl rfl
theorem heatPark (isle : Nat) : Statement (.heatPark isle) := of_none rfl rfl
theorem heatUnpark (isle : Nat) : Statement (.heatUnpark isle) := of_none rfl rfl
theorem coolantSample (inlet outlet flow : Nat) (inRange : Bool) : Statement (.coolantSample inlet outlet flow inRange) := of_none rfl rfl
theorem coreFailed (isle site item : Nat) : Statement (.coreFailed isle site item) := of_none rfl rfl
theorem recoveryPlanned (part : Nat) : Statement (.recoveryPlanned part) := of_none rfl rfl
theorem recoveryCopyDone (part : Nat) : Statement (.recoveryCopyDone part) := of_none rfl rfl
theorem recoveryReprogrammed (part : Nat) (image : Option Bytes) : Statement (.recoveryReprogrammed part image) := of_none rfl rfl
theorem recoveryRewriteDone (part : Nat) : Statement (.recoveryRewriteDone part) := of_none rfl rfl
theorem isleFailed (isle : Nat) (image : Option Bytes) : Statement (.isleFailed isle image) := of_none rfl rfl
theorem coreRepair (isle site : Nat) : Statement (.coreRepair isle site) := of_none rfl rfl
theorem isleRetirement (isle : Nat) (image : Option Bytes) : Statement (.isleRetirement isle image) := of_none rfl rfl
theorem resupply (isle site : Nat) (image : Option Bytes) : Statement (.resupply isle site image) := of_none rfl rfl
theorem resupplyDone (isle site : Nat) : Statement (.resupplyDone isle site) := of_none rfl rfl
theorem watchdogExpiry (proc : Proc) : Statement (.watchdogExpiry proc) := of_none rfl rfl
theorem firmwareTrap (proc : Proc) : Statement (.firmwareTrap proc) := of_none rfl rfl
theorem processorResumed (proc : Proc) : Statement (.processorResumed proc) := of_none rfl rfl
theorem icLate (isle : Nat) : Statement (.icLate isle) := of_none rfl rfl
theorem repairLogAppend : Statement (.repairLogAppend) := of_none rfl rfl
theorem hello (port : Nat) (msg : HelloMsg) : Statement (.hello port msg) := of_none rfl rfl
theorem helloTimer : Statement (.helloTimer) := of_none rfl rfl
theorem neighbourTimeout (port : Nat) : Statement (.neighbourTimeout port) := of_none rfl rfl
theorem numberRequest (port ident pref : Nat) : Statement (.numberRequest port ident pref) := of_none rfl rfl
theorem numberGrant (ident : Nat) (num : Option Nat) : Statement (.numberGrant ident num) := of_none rfl rfl
theorem numberHoldExpiry (num : Nat) : Statement (.numberHoldExpiry num) := of_none rfl rfl
theorem routeVector (port quarter : Nat) (entries : Bytes) : Statement (.routeVector port quarter entries) := of_none rfl rfl
theorem routeVectorTimer : Statement (.routeVectorTimer) := of_none rfl rfl
theorem laneFailure (port : Nat) (bad : Nat) : Statement (.laneFailure port bad) := of_none rfl rfl
theorem portRetrained (port : Nat) : Statement (.portRetrained port) := of_none rfl rfl
theorem packetReceive (port : Nat) (pkt : Packet) (crc : Word) (checks : List Word) : Statement (.packetReceive port pkt crc checks) := of_none rfl rfl
theorem linkNak (port lack : Nat) : Statement (.linkNak port lack) := of_none rfl rfl
theorem e2eRetransmit (dest fvc eseq : Nat) : Statement (.e2eRetransmit dest fvc eseq) := of_none rfl rfl
theorem transitCreditTimeout (port : Nat) : Statement (.transitCreditTimeout port) := of_none rfl rfl
theorem dataWrite (pkt : Packet) : Statement (.dataWrite pkt) := of_none rfl rfl
theorem counterAdd (pkt : Packet) : Statement (.counterAdd pkt) := of_none rfl rfl
theorem endToEndAcknowledgement (dest fvc eseq : Nat) : Statement (.endToEndAcknowledgement dest fvc eseq) := of_none rfl rfl
theorem refusal (dest fvc flow : Nat) : Statement (.refusal dest fvc flow) := of_none rfl rfl
theorem gateFire (gate : Nat) : Statement (.gateFire gate) := of_none rfl rfl
theorem forwardedLaneEntries (src part : Nat) (beat : Nat) (entries : List Bytes) : Statement (.forwardedLaneEntries src part beat entries) := of_none rfl rfl
theorem forwardedLaneStateWord (src part lane : Nat) (word : Bytes) : Statement (.forwardedLaneStateWord src part lane word) := of_none rfl rfl
theorem forwardedVoid (src part entry : Nat) : Statement (.forwardedVoid src part entry) := of_none rfl rfl
theorem followerEntryTimeout (part : Nat) : Statement (.followerEntryTimeout part) := of_none rfl rfl
theorem proxyMessage (src : Nat) (msg : ProxyMsg) : Statement (.proxyMessage src msg) := of_none rfl rfl
theorem migrationGo (entry dest : Nat) (area : Option Bytes) : Statement (.migrationGo entry dest area) := of_none rfl rfl
theorem migration (src : Nat) (package : Bytes) : Statement (.migration src package) := of_none rfl rfl
theorem getVersion (tr : Transport) : Statement (.getVersion tr) := of_none rfl rfl
theorem getCapabilities (tr : Transport) : Statement (.getCapabilities tr) := of_none rfl rfl
theorem negotiateAlgorithms (tr : Transport) : Statement (.negotiateAlgorithms tr) := of_none rfl rfl
theorem getDigests (tr : Transport) : Statement (.getDigests tr) := of_none rfl rfl
theorem getCertificate (tr : Transport) (slot off len : Nat) : Statement (.getCertificate tr slot off len) := of_none rfl rfl
theorem challenge (tr : Transport) (slot : Nat) (nonce : Bytes) : Statement (.challenge tr slot nonce) := of_none rfl rfl
theorem getMeasurements (tr : Transport) (index : Nat) : Statement (.getMeasurements tr index) := of_none rfl rfl
theorem keyExchange (tr : Transport) (sid : Nat) : Statement (.keyExchange tr sid) := of_none rfl rfl
theorem finish (tr : Transport) (sid : Nat) (ok : Bool) : Statement (.finish tr sid ok) := of_none rfl rfl
theorem heartbeat (tr : Transport) (sid : Nat) : Statement (.heartbeat tr sid) := of_none rfl rfl
theorem keyUpdate (tr : Transport) (sid : Nat) : Statement (.keyUpdate tr sid) := of_none rfl rfl
theorem endSession (tr : Transport) (sid : Nat) : Statement (.endSession tr sid) := of_none rfl rfl
theorem keyProg (sid stream : Nat) (key : Bytes) : Statement (.keyProg sid stream key) := of_none rfl rfl
theorem kSetGo (sid stream : Nat) : Statement (.kSetGo sid stream) := of_none rfl rfl
theorem kSetStop (sid stream : Nat) : Statement (.kSetStop sid stream) := of_none rfl rfl
theorem ideFail (stream : Nat) : Statement (.ideFail stream) := of_none rfl rfl
theorem requestUpdate (size : Nat) : Statement (.requestUpdate size) := of_none rfl rfl
theorem requestFirmwareData (off : Nat) (data : Bytes) : Statement (.requestFirmwareData off data) := of_none rfl rfl
theorem cancelUpdate : Statement (.cancelUpdate) := of_none rfl rfl
theorem pldmWindowExpiry : Statement (.pldmWindowExpiry) := of_none rfl rfl
theorem getPdr (handle : Nat) : Statement (.getPdr handle) := of_none rfl rfl
theorem getSensorReading (sensor : Nat) : Statement (.getSensorReading sensor) := of_none rfl rfl
theorem getStateSensorReadings (sensor : Nat) : Statement (.getStateSensorReadings sensor) := of_none rfl rfl
theorem pollForPlatformEventMessage : Statement (.pollForPlatformEventMessage) := of_none rfl rfl
theorem eventRecordEnqueue (stage : LogStage) (record : EvRec) : Statement (.eventRecordEnqueue stage record) := of_none rfl rfl
theorem alarm (bit : Nat) (record : EvRec) : Statement (.alarm bit record) := of_none rfl rfl
theorem eventRingWrite : Statement (.eventRingWrite) := of_none rfl rfl
theorem eventRingSignalTimer : Statement (.eventRingSignalTimer) := of_none rfl rfl
theorem referenceClockLoss : Statement (.referenceClockLoss) := of_none rfl rfl
theorem eidAssignment (eid : Nat) : Statement (.eidAssignment eid) := of_none rfl rfl
theorem doeDiscovery (index : Nat) : Statement (.doeDiscovery index) := of_none rfl rfl

end Sys2Proof.Laws.Slots
end

