-- ==== Sys2Proof/Tests/Slice0.lean ====
section
/-!
SUPPORT. The model's own tests: for each statement, concrete states and operands that meet its hypotheses together, clause by clause, each a
single step on a small state built by the helpers at the start. Expected values are worked out from the spec's rules and tables.
-/
namespace Sys2Proof.Tests
open Sys2Proof Sys2Proof.Machine
set_option Elab.async false

theorem test_reset_queue_empty : State.reset.pending = [] := by decide

/-! ## Helpers -/

/-- Does a command complete, and does the next state have a property? -/
def yes (i : Instr) (s : State) (p : State → Bool) : Bool :=
  match exec i s with
  | .next t => p t
  | _ => false

/-- Does a command stop with a fault of a cause? -/
def stops (i : Instr) (s : State) (c : ErrCause) : Bool :=
  match exec i s with
  | .fault (.unpredictable d) => d == c
  | _ => false

/-- Does a command complete and change nothing? -/
def still (i : Instr) (s : State) : Bool := yes i s (fun t => t == s)

/-- A small state: in Ready, the first isle on, the link up, one partition loaded on the first isle. -/
def base : State := { ((State.reset.setFld (rSys 1) 3 0 7).setFld (rPwr 0x200) 2 0 2) with linkUp := true }
def part0 : Part := { loaded := true, rows := 1, cols := 1, lanes := 2, stages := 1, liveValid := true, started := true, begun := true
                      beatLen := [100], classlat := [10], dmax := 40, noMap := false }
def run0 : State := base.setPart 0 part0

def atCyc (s : State) (c : Nat) : State := { s with cyc := c }

/-- A state with memory bytes at an offset of a space of core 0. -/
def at0 (s : State) (sp off : Nat) (bs : Bytes) : State := s.wr (wa sp 0 off) bs
def ptr0 (s : State) (i v : Nat) : State := s.updCore 0 (fun k => { k with pts := fset 0 k.pts i (BitVec.ofNat 48 v) })

/-- `n` score cycles of core 0 end. -/
def lands : Nat → State → State
  | 0, s => s
  | n + 1, s => lands n ((s.land 0).updCore 0 (fun k => { k with clk := Nat.max k.clk 1 + 1 }))

/-- Does a score instruction of core 0 complete, and does the state after `n` score cycles have a property? -/
def ran (n : Nat) (i : Instr) (s : State) (p : State → Bool) : Bool := yes i s (fun t => p (lands n t))

/-! ## Control and CIM slots -/

/-- Eight bytes at shelf offset 0 and the last two words of the shelf; PT1 at 0, PT2 at the last line, PT3 at a cabinet image. -/
def c01 : State := ptr0 (ptr0 (at0 (at0 run0 spShelf 0 [1, 2, 3, 4, 5, 6, 7, 8]) spShelf 0x3EFFF8 [9, 9, 9, 9, 9, 9, 9, 9]) 1 0) 2 0x3EFFC0

theorem witness_OperationsLandInTheirCycle :
    c01.flows = [] ∧ (c01.core 0).due = [] ∧
      (∀ o ∈ ((c01.addOps 0 [{ at_ := 1, port := 0, act := .lead 0 20 }]).core 0).ops, c01.cycle 0 < o.at_) ∧
      ((c01.addOps 0 [{ at_ := 0, port := 0, act := .ptr 7 9 }]).core 0).ops = [{ at_ := 0, port := 0, act := .ptr 7 9 }] ∧
      ((c01.addOps 0 [{ at_ := 0, port := 0, act := .ptr 7 9 }]).land 0).ptr 0 7 = 9#48 := by decide +kernel
/-- A read of the line at shelf offset 0 and a write of the whole of it in one cycle. -/
def c01r : State :=
  let j : Job := { instr := .ctlPld 0 ⟨.none, false⟩ 5 1 0 [], offs := [0], ctx := {}, at_ := c01.cycle 0 }
  c01.addOps 0 [partOp 0 (c01.cycle 0) j [{ port := 0, line := 0 / 64, wide := false }],
    writeOp 4 (c01.cycle 0) spShelf 0 (List.replicate 64 7) false]
theorem witness_ReadsSeeTheOldLine : c01r.flows = [] ∧ (c01r.core 0).due = [] ∧ c01r.isBad 0 spShelf (0 / 64 * 64) = false ∧
    (c01r.land 0).ptr 0 5 = 0x060504030201#48 ∧ (c01r.land 0).rd (wa spShelf 0 0) 64 = List.replicate 64 7 := by decide +kernel
theorem witness_WritesLandInTheirLine : (8 : Nat) % 64 + 2 ≤ 64 ∧ CleanWrite [] 4 8 2 ∧
    busDropped (wrAcc 4 0 64) [{ port := 1, line := 4, wide := true }] = true ∧ shelfWritable 0x3F0000 = false ∧
    ((c01.landOp 0 [] (writeOp 4 0 spShelf 8 [5, 6] false)).rd (wa spShelf 0 7) 4 = [8, 5, 6, 0]) := by
  refine ⟨by decide, ⟨by decide, by decide, by decide⟩, by decide, by decide, by decide +kernel⟩

theorem witness_LoadPointerReadsTwoWords :
    shelfOk (c01.ptrOff 0 2) 1 = true ∧ c01.ptrOff 0 2 + 4 * 14 < 0x400000 ∧ CleanRead c01 0 [] 0 0x3EFFC0 false ∧
      ran 1 (.ctlPld 0 ⟨.none, false⟩ 5 2 14 []) c01 (fun t => t.ptr 0 5 == 0x090909090909#48 && t.ptr 0 0 == 0#48) = true :=
  ⟨by decide +kernel, by decide +kernel, ⟨by decide +kernel, by decide +kernel, by decide +kernel⟩, by decide +kernel⟩
theorem test_pld_low_words : ran 1 (.ctlPld 0 ⟨.none, false⟩ 31 1 0 []) c01 (fun t => t.ptr 0 31 == 0x060504030201#48) = true := by decide +kernel
theorem witness_PointerAddMovesTheOffset : (2 : Nat) < 32 ∧
    ran 1 (.ctlPadd 0 2 1) c01 (fun t => t.ptr 0 2 == 0x3F0000#48) = true ∧ ran 1 (.ctlPadd 0 0 7) c01 (fun t => t.ptr 0 0 == 0#48) = true := by
  decide +kernel
theorem test_padd_wraps_below_zero : ran 1 (.ctlPadd 0 1 (-1)) c01 (fun t => t.ptr 0 1 == BitVec.ofNat 48 (2 ^ 29 - 64)) = true := by decide +kernel
def c01b : State := c01.updCore 0 (fun k => { k with next := 10, loops := [{ lc := 1, first := 8, last := 20, left := 1 }] })
theorem witness_SequencerInstructions :
    (c01b.core 0).loops.length < 4 ∧ (∀ l ∈ (c01b.core 0).loops, l.lc ≠ 0 ∧ (c01b.core 0).next + 5 - 1 ≤ l.last) ∧
      (∀ l, (c01b.core 0).loops.head? = some l → l.first ≤ 20 ∧ 20 ≤ l.last ∧ (c01b.core 0).next ≠ l.last + 1) ∧
      yes (.ctlLoop 0 0 3 5) c01b (fun t => (t.core 0).loops.head? == some { lc := 0, first := 10, last := 14, left := 2 }) = true ∧
      yes (.ctlLoop 0 0 0 5) c01b (fun t => (t.core 0).next == 15) = true ∧
      yes (.ctlJump 0 20) c01b (fun t => (t.core 0).next == 20) = true := by
  refine ⟨by decide +kernel, by decide +kernel, ?_, by decide +kernel, by decide +kernel, by decide +kernel⟩
  intro l h
  have : (c01b.core 0).loops.head? = some { lc := 1, first := 8, last := 20, left := 1 } := by decide +kernel
  rw [this] at h; cases h; decide +kernel
theorem test_flead_floor : ran 1 (.ctlFlead 0 1 3) c01 (fun t => (t.core 0).flX == 16 && (t.core 0).flA == 16) = true := by decide +kernel
theorem test_lane_sets_unit : ran 1 (.ctlLane 0 3 7 9 true) c01 (fun t => t.unit 0 3 == { lane := 7, tensor := 9, dg := true }) = true := by decide +kernel

/-- A core whose first array holds W1 weights; two of its rows hold ones. -/
def wrec : CoreRec := { afmt := 1, masterLen := 1000000, masterBase := 0 }
def m01 : State := (base.setPart 0 { part0 with dir := [(0, wrec)] }).updArr 0 (fun a => { a with state := 0, logical := 0 })
def accN (s : State) (e t i : Nat) : Nat := s.rdN (wa spAcc 0 (accOff e t 0) + 4 * i) 4

theorem witness_ProductsComplete :
    (Instr.cimMvm 0 ⟨.none, false⟩ 0 0 1 15 1 30 false 0 239 ⟨[], []⟩).wf = true ∧
      (∀ k, k < 1 → afmtOf (m01.coreRec 0).afmt (0 * 8 + 0 + k) = some 0) ∧
      yes (.cimMvm 0 ⟨.none, false⟩ 0 0 0 0 1 3 false 0 0 ⟨[], []⟩) m01 (fun t => t.mem == m01.mem) = true := by decide +kernel
theorem test_mvm_wrong_format_stops : stops (.cimMvm 0 ⟨.none, false⟩ 0 0 1 0 1 3 false 1 0 ⟨[], []⟩) m01 .contract = true := by decide +kernel
/-- A W1 product of one window whose converters read `obs`, run until it ends or waits for a rewrite. -/
def run01 (obs : List Conv) : State × Mvm :=
  m01.mvmRun 0 0 { first := 0, g := 1, w0 := 15, n := 1, t := 30, h := false, fmt := 0, a := 239, acc := [], obs := obs, next := 0,
                   rewrites := [], row := 0, causes := [] } [] 18
/-- Table 2-3, R52: steps k and k + 1 both fail once: each is converted again once, and no rewrite begins (R53). -/
theorem test_two_failed_steps_reconvert_once : ((run01 [⟨0, 15, 0, 0, 0, 1⟩, ⟨0, 15, 1, 0, 0, 1⟩]).1.arr (m01.arrKey 0 0)).reconv = 2 ∧
    (run01 [⟨0, 15, 0, 0, 0, 1⟩, ⟨0, 15, 1, 0, 0, 1⟩]).2.rewrites = [] ∧
    (run01 [⟨0, 15, 0, 0, 0, 1⟩, ⟨0, 15, 1, 0, 0, 1⟩]).2.next = 8 := by decide +kernel
/-- R53: a step that fails its re-conversion too begins the rewrite of its window, while step k + 2 has entered (Table 2-3, cycle k + 3) and
the next is held. -/
theorem test_second_failure_rewrites : ((run01 [⟨0, 15, 0, 0, 0, 1⟩, ⟨0, 15, 0, 1, 0, 1⟩]).1.arr (m01.arrKey 0 0)).reconv = 1 ∧
    (run01 [⟨0, 15, 0, 0, 0, 1⟩, ⟨0, 15, 0, 1, 0, 1⟩]).2.next = 3 ∧
    (run01 [⟨0, 15, 0, 0, 0, 1⟩, ⟨0, 15, 0, 1, 0, 1⟩]).2.rewrites.map (fun r => (r.win, r.bitsHeld)) = [(15, [0])] := by decide +kernel
theorem test_residue_counts : residueWeight 0 % 4 ≠ 0 ∧ (65 : Nat) % 66 = 65 ∧ (15 : Nat) < 16 := by decide +kernel
/-- A window rewrite that waits for its lines, and the same one after its last line. -/
def w01 : Mvm := { first := 0, g := 1, w0 := 0, n := 1, t := 3, h := false, fmt := 0, a := 0, acc := [], obs := []
                   next := 8, rewrites := [{ slot := 0, win := 0, bitsHeld := [], others := [], last := [] }], row := 0, causes := [] }
def w01s (row : Nat) (at_ : Nat) : State := { ((m01.updPart 0 (fun q => { q with items := [{ core := 0, cause := 1, up := 0, down := none }] })).updCore 0
  (fun k => { k with susp := fset [] k.susp 0 [{ w01 with row := row }] })) with cyc := at_ }
theorem witness_WindowRewriteRuns : fget [] ((w01s 0 16).core 0).susp 0 = [w01] ∧ ((w01s 0 16).outstanding 0 2 && ((w01s 0 16).core 0).frozen) = false ∧
    16 ≤ ((w01s 0 16).itemAge 0 1).getD 0 ∧
    (w01s 0 16).isBad 0 spCabinet (((w01s 0 16).coreRec 0).slotBase ((w01s 0 16).partAt 0).liveSlot + arrOff ((w01s 0 16).coreRec 0).afmt (0 * 8 + 0 + 0) +
        burstLine 0 0 (0 % wBursts 0) (1 + 0 / wBursts 0)) = false ∧
    yes (.masterCopyFetchLine 0 0 0 0) (w01s 0 16) (fun t => (fget [] (t.core 0).susp 0) == [{ w01 with row := 1 }]) = true ∧
    544 + 2 * 0 ≤ ((w01s 128 544).itemAge 0 1).getD 0 ∧
    yes (.rewriteComplete 0 0 []) (w01s 128 544) (fun t => (fget [] (t.core 0).susp 0) == []) = true := by decide +kernel
/-- R56: the rewrite takes 544 core cycles at least. -/
theorem test_rewrite_not_before_its_length : still (.rewriteComplete 0 0 []) (w01s 128 543) = true ∧
    still (.masterCopyFetchLine 0 0 0 0) (w01s 0 15) = true := by decide +kernel
theorem witness_PreloadAndReadOut : shelfOk (m01.ptrOff 0 4) 32 = true ∧ (224 : Nat) + 32 ≤ 256 ∧ CleanRead m01 0 [] (cimPort 0) (preLine 0 0 0 1) true ∧
    m01.isBad 0 spAcc (accOff 0 3 31) = false ∧ (preEntries 1 []).2 = false ∧ ((List.replicate 16 0).length = 16) :=
  ⟨by decide +kernel, by decide, ⟨by decide +kernel, by decide +kernel, by decide +kernel⟩, by decide +kernel, by decide +kernel, by decide⟩
/-- R118: a read-out of 4 codewords in a cycle sees what stood before the cycle; with `CLR` the row is zero in the cycle after. -/
theorem test_read_out_sees_the_old_row :
    ran 9 (.cimOut 0 ⟨.none, false⟩ 0 3 0 true 0 0 [] []) ((List.range 32).foldl (fun s i => s.accPut 0 0 3 i (List.replicate 16 5)) m01)
      (fun t => accN t 0 3 511 == 0 && t.rdN (wa spBuf 0 (bufVec + 64 * 31 + 60)) 4 == 5) = true := by decide +kernel
/-- R121: a tile row is undefined until it is preloaded or written; a write of a part of a line leaves the rest of it as it was. -/
theorem test_undefined_rows : fget 0 (m01.core 0).acc (accOff 0 3 0 / 64) = 0 ∧
    ran 1 (.cimPre 0 ⟨.none, false⟩ 0 3 0 0 0 []) m01 (fun t => fget 0 (t.core 0).acc (accOff 0 3 31 / 64) == 1 && accN t 0 3 511 == 0) = true ∧
    fget 0 ((m01.accWrite 0 4 [1, 2, 3, 4]).core 0).acc 0 = 1 := by decide +kernel

/-! ## Calibration, retirement and attention -/

/-- Array 1 of the first site is logical array 0 and its spare (48) is filled for it. -/
def c02 : State := { ((base.updArr 1 (fun a => { a with state := 0, logical := 0, slot := 136 })).updArr 48
  (fun a => { a with state := 2, replaces := some 1 })) with arrMap := [(0, 2)] }
theorem witness_CalibrationAndArrayCare :
    c02.icUp (arrIsle (c02.arrKey 0 (8 * 0 + 0))) = true ∧ (c02.arr (c02.arrKey 0 0)).slot = 136 ∧
      yes (.cimCal 0 (2 ^ 0) (2 ^ 0) []) c02 (fun t => (t.arr 1).slot == 0) = true ∧
      c02.coreAt 0 0 = some 0 ∧ c02.icUp 0 = true ∧ (c02.arr 1).logical < 48 ∧ (c02.arr 48).state = 2 ∧ (c02.arr 48).replaces = some 1 ∧
      (0 * 169 + 0) * 64 + spareOf (c02.arr 1).logical = 48 := by decide +kernel
/-- The same, with array 1 in the layout and its last slot 8,193 score cycles ago (R60: 4,096 array cycles are 8,192). -/
def c02s (n : Nat) : State := (run0.updArr 1 (fun a => { a with state := 0, logical := 0 })).updCore 0 (fun k => { k with clk := n, calEnd := [(0, 1)] })
theorem test_starved_reports : 2 * 4096 < (c02s 8195).calGap 0 0 ∧ (c02s 8195).coreAt 0 0 = some 0 ∧ (c02s 8195).icUp 0 = true ∧
    yes (.calStarved 0 0 1) (c02s 8195) (fun t => (t.reg (rIsle 0 0x810)).getLsbD 6 && (t.core 0).starved == [0]) = true ∧
    still (.calStarved 0 0 1) (c02s 8000) = true := by decide +kernel
theorem test_spare_takes_the_array : yes (.spareArrayReplaced 0 0 1 []) c02 (fun t =>
    (t.arr 48).logical == 0 && (t.arr 48).state == 0 && (t.arr 1).state == 4 && fget 0 t.arrMap 0 == 49) = true := by decide +kernel

/-- A core with one assignment (one head, FP8 drawers) and a parameter line at PT1; its map is empty. -/
def asg02 : Asg := { slots := 8, kmax := 8, stride := 1, base := 0x100000, mapBase := 0x200000, format := 3 }
def par02 : Bytes := [0, 0, 128, 63, 1, 1, 0, 0, 16, 0, 0, 0, 1, 0, 0, 2]
def a02 : State := ptr0 (ptr0 (at0 (base.setPart 0 { part0 with dir := [(0, { asgs := [asg02] })] }) spShelf 64 par02) 1 64) 2 0x3E0000
theorem witness_AttentionPassAndMerge :
    a02.asg 0 0 = some asg02 ∧ shelfReadable (a02.ptrOff 0 1) = true ∧
      (passPar (a02.readLine 0 [] spShelf (a02.ptrOff 0 1)).1).ok (a02.readLine 0 [] spShelf (a02.ptrOff 0 1)).1 3 = true ∧
      shelfOk (a02.ptrOff 0 1) 1 = true ∧ shelfOk (a02.ptrOff 0 2) (1 * rowLines 1) = true ∧ 1021 + 1 * (1 + 2 * 1) ≤ 1024 ∧
      shelfOk 0 ((0 + 1) * drawerLines 3) = true ∧ (passPar (par02.take 64)).mode / 8 % 2 = 0 ∧ mapCount (par02.drop 64) = 0 := by decide +kernel
theorem witness_MergeReads : CleanRead a02 0 [] 3 (0 + 512 * 0 + 64 * 7) true ∧ CleanRead a02 0 [] 3 (0 + 64 * (8 * 1 + 0 / 8)) true :=
  ⟨⟨by decide +kernel, by decide +kernel, by decide +kernel⟩, ⟨by decide +kernel, by decide +kernel, by decide +kernel⟩⟩
/-- R133, R243: a pass of a lane whose map is empty writes a row with `M` minus infinity, in its own time and not before. -/
theorem test_pass_of_an_empty_map : yes (.attPass 0 ⟨⟨.none, false⟩, []⟩ 31 0 0 1 1 2 1021 false false) a02 (fun t =>
    (t.unit 0 2).lane == 31 && (lands 76 t).rd (wa spShelf 0 0x3E0200) 4 == [0, 0, 0, 0] &&
    (lands 80 t).rd (wa spShelf 0 0x3E0200) 4 == [0, 0, 128, 255]) = true := by decide +kernel
theorem test_merge_with_no_token : (RowState.init.merge { m := 0x3F800000, l := 0x3F800000, o := List.replicate 128 0 }).l = 0x3F800000 := by decide +kernel
theorem witness_StreamedProductCompletes : a02.ptrOff 0 4 % 64 = 0 ∧ a02.ptrOff 0 4 + 8 * imageBytes 2 ≤ 0x5800000 ∧
    shelfOk (a02.ptrOff 0 2) 64 = true ∧ 888 + 17 * (8 - 1) + 16 + 1 ≤ 1024 := by decide +kernel

/-! ## Vector slot -/

/-- Two buffer lines at the top of the buffer, a shelf line at PT1; PT2 at the last writable shelf line. -/
def one4 : Bytes := [0, 0, 128, 63]
def v03 : State := ptr0 (ptr0 (at0 (at0 run0 spBuf (vecOff 255) (one4 ++ [0, 0, 0, 64])) spShelf 64 [1, 2, 3]) 1 64) 2 0x3EFFC0
theorem witness_VectorMoves : shelfOk (v03.ptrOff 0 1) 1 = true ∧ 255 + 1 ≤ 256 ∧ CleanRead v03 0 [] 4 (v03.ptrOff 0 1 + 64 * 0) true ∧
    v03.isBad 0 spBuf (vecOff (255 + 0)) = false ∧
    ran 1 (.vecLd 0 ⟨.none, false⟩ 1 0 1 [] []) v03 (fun t => t.rd (wa spBuf 0 (vecOff 0)) 3 == [1, 2, 3]) = true ∧
    ran 1 (.vecSt 0 ⟨.none, false⟩ 2 255 1 []) v03 (fun t => t.rd (wa spShelf 0 0x3EFFC0) 4 == one4) = true :=
  ⟨by decide +kernel, by decide, ⟨by decide +kernel, by decide +kernel, by decide +kernel⟩, by decide +kernel, by decide +kernel, by decide +kernel⟩
/-- R207: the result of an addition is there from its class latency on, here 10 cycles after the issue, and not before. -/
theorem witness_VectorArithmetic : 255 + 1 ≤ 256 ∧ 0 + (0 + 1) / 2 ≤ 256 ∧ 0 + 8 * 32 ≤ 256 ∧ 252 ≤ 252 ∧
    ran 10 (.vecAlu 0 ⟨⟨.none, false⟩, []⟩ 0 0 255 255 0 0 1 false) v03 (fun t => t.rd (wa spBuf 0 (vecOff 0)) 8 == [0, 0, 0, 64, 0, 0, 128, 64]) = true ∧
    ran 9 (.vecAlu 0 ⟨⟨.none, false⟩, []⟩ 0 0 255 255 0 0 1 false) v03 (fun t => t.rd (wa spBuf 0 (vecOff 0)) 8 == List.replicate 8 0) = true ∧
    ran 10 (.vecXl 0 ⟨⟨.none, false⟩, []⟩ 0 0 255 1 255 15) { v03 with parts := [(0, { part0 with classlat := [10, 10, 10, 10] })] }
      (fun t => t.rd (wa spBuf 0 (vecOff 255 + 60)) 4 == [0, 0, 0, 64]) = true := by
  decide +kernel
theorem test_reciprocal_of_two : trOp 1 0x40000000 0 = 0x3F000000 := by decide +kernel
theorem witness_QuantiserCompletes : (Instr.vecQnt 0 ⟨⟨.none, false⟩, []⟩ 2 0 0 0 2 3 1 252 2 1 63 true).wf = true ∧
    shelfOk (v03.ptrOff 0 1) 1 = true ∧ v03.ptrOff 0 1 + 64 + 8 * elemBits 2 * (63 + 1) ≤ 0x400000 ∧ shelfOk (v03.ptrOff 0 3) (2 * 1) = true ∧
    252 + 4 * 1 ≤ 256 ∧ Nat.max 1 2 ≤ 2 + 1 := by decide +kernel
/-- The vector part's samplers end 8 or 32 cycles after the class latency. -/
def v03s : State := { v03 with parts := [(0, { part0 with classlat := [10, 10, 10, 10, 10, 10, 10] })] }
theorem witness_SamplerSteps : (31 : Nat) < 32 ∧ 223 + 33 ≤ 256 ∧ leNat ((v03.bufRun 0 (vecOff 223) 33).take 4) ≤ 256 ∧
    CleanWrite [] 4 (wordOff 31) 60 ∧ CleanWrite [] 4 (wordOff 31 + 4) 4 ∧
    ran 42 (.draw 0 ⟨⟨.none, false⟩, []⟩ 31 223) (at0 v03s spBuf (vecOff 223) [0]) (fun t => t.rdN (wa spShelf 0 (wordOff 31) + 6) 1 == 1) = true ∧
    ran 18 (.verify 0 ⟨⟨.none, false⟩, []⟩ 31) v03s (fun t => t.rdN (wa spShelf 0 (wordOff 31) + 4) 1 == 1) = true :=
  ⟨by decide, by decide, by decide +kernel, ⟨by decide +kernel, by decide +kernel, by decide +kernel⟩,
   ⟨by decide +kernel, by decide +kernel, by decide +kernel⟩, by decide +kernel, by decide +kernel⟩

/-! ## Transfer slot -/

/-- A partition with drawers of shard 0 of 1; PT1 and PT2 in the shelf, PT3 and PT4 in the cabinet, PT5 in the shelf of core 1. Lane 31 has
a new occupant of map 5, one position, and releases it. -/
def pt04 (sp core off : Nat) : Nat := wa sp core off
def ent04 : Bytes := [0, 0x0B, 1, 0, 5, 0, 5, 0]
def x04 : State :=
  let s := base.setPart 0 { part0 with dir := [(0, { asgs := [asg02] })] }
  let s := at0 (at0 (at0 s spShelf 64 [1, 2, 3]) spCabinet 0 [4, 5]) spShelf (sheetOff 31) ent04
  ptr0 (ptr0 (ptr0 (ptr0 (ptr0 s 1 (wa 0 0 64)) 2 (wa 0 0 0x3E0000)) 3 (wa 1 0 0)) 4 (wa 1 0 0x800000)) 5 (wa 0 1 64)
def pl (sp c off : Nat) : Place := { space := sp, core := c, off := off }
theorem witness_CopyRoutes :
    x04.place 0 1 1 = some (pl 0 0 64) ∧ x04.place 0 2 1 = some (pl 0 0 0x3E0000) ∧ x04.place 0 3 1 = some (pl 1 0 0) ∧
      x04.place 0 4 1 = some (pl 1 0 0x800000) ∧ x04.place 0 5 1 = some (pl 0 1 64) ∧
      x04.copyRoute 0 (pl 0 0 64) (pl 0 0 0x3E0000) 0 = some .shelf ∧ x04.copyRoute 0 (pl 1 0 0) (pl 0 0 0x3E0000) 0 = some .fromCabinet ∧
      x04.copyRoute 0 (pl 0 0 64) (pl 1 0 0x800000) 0 = some .toCabinet ∧ x04.copyRoute 0 (pl 0 0 64) (pl 0 1 64) 0 = some .scheduled ∧
      x04.copyRoute 0 (pl 0 0 64) (pl 0 1 64) 1 = some .push ∧ x04.copyRoute 0 (pl 0 1 64) (pl 0 0 64) 1 = some .pull ∧ x04.flowsOf 0 < 4 ∧
      CleanRead x04 0 [] 5 (64 + 64 * 0) true ∧ CleanRead x04 0 [] 6 (64 + 64 * 0) true :=
  ⟨by decide +kernel, by decide +kernel, by decide +kernel, by decide +kernel, by decide +kernel, by decide +kernel, by decide +kernel,
   by decide +kernel, by decide +kernel, by decide +kernel, by decide +kernel, by decide +kernel,
   ⟨by decide +kernel, by decide +kernel, by decide +kernel⟩, ⟨by decide +kernel, by decide +kernel, by decide +kernel⟩⟩
/-- Table 8-10: a copy within the shelf is read in cycle c and there from c + 2 on; one from the cabinet after the fetch lead of 16. -/
theorem test_copies : ran 1 (.xfrCp 0 ⟨.none, false⟩ 1 2 1 0 []) x04 (fun t => t.rd (wa spShelf 0 0x3E0000) 3 == [0, 0, 0]) = true ∧
    ran 2 (.xfrCp 0 ⟨.none, false⟩ 1 2 1 0 []) x04 (fun t => t.rd (wa spShelf 0 0x3E0000) 3 == [1, 2, 3]) = true ∧
    ran 16 (.xfrCp 0 ⟨.none, false⟩ 3 2 1 0 []) x04 (fun t => t.rd (wa spShelf 0 0x3E0000) 3 == [0, 0, 0]) = true ∧
    ran 17 (.xfrCp 0 ⟨.none, false⟩ 3 2 1 0 []) x04 (fun t => t.rd (wa spShelf 0 0x3E0000) 3 == [4, 5, 0]) = true := by decide +kernel
theorem test_remote_copies : ran 1 (.xfrCp 0 ⟨.none, false⟩ 1 5 1 0 []) x04
      (fun t => t.net.map (fun l => (l.vc, l.sch, l.route.length, l.route.map (·.dest))) == [(0, 1, 1, [1])]) = true ∧
    yes (.xfrCp 0 ⟨.none, false⟩ 1 5 1 1 []) x04 (fun t => t.flows.map (fun f => (f.core, f.lines.length)) == [(0, 1)]) = true ∧
    yes (.xfrCp 0 ⟨.none, false⟩ 5 1 1 1 []) x04 (fun t => t.net.map (fun l => (l.vc, l.msg)) == [(2, .request 0)]) = true := by decide +kernel
theorem witness_GatherTakesTheRow : shelfOk (x04.ptrOff 0 2) 1 = true ∧ shelfOk (x04.ptrOff 0 1) 1 = true ∧
    x04.place 0 3 0 = some (pl 1 0 0) ∧ x04.place 0 5 0 = some (pl 0 1 64) ∧ x04.samePart 0 1 = true ∧ shelfReadable (x04.ptrOff 0 2) = true ∧
    leNat ((x04.rdLine 0 spShelf (x04.ptrOff 0 2)).take 4) = 0 ∧ CleanRead x04 0 [] 5 (x04.ptrOff 0 2) false ∧
    ran 18 (.xfrGather 0 ⟨.none, false⟩ 2 3 1 1 0 []) x04 (fun t => t.rd (wa spShelf 0 64) 2 == [4, 5]) = true :=
  ⟨by decide +kernel, by decide +kernel, by decide +kernel, by decide +kernel, by decide +kernel, by decide +kernel, by decide +kernel,
   ⟨by decide +kernel, by decide +kernel, by decide +kernel⟩, by decide +kernel⟩
/-- The drawer state with one free slot. -/
def x04f : State := x04.setFld (x04.sreg 0 0x880) 15 0 1
theorem witness_DrawerInstructions :
    x04.asg 0 0 = some asg02 ∧ shelfOk (x04.ptrOff 0 1) (32 * 1) = true ∧ entNew (x04.sheetEnt 0 31) = true ∧
      x04.place 0 2 (1 * drawerLines 3) = some (pl 0 0 0x3E0000) ∧ shelfOk (x04.ptrOff 0 1) 1 = true ∧
      entKind (x04.sheetEnt 0 31) = 0 ∧ entN (x04.sheetEnt 0 31) = 1 ∧ x04.wordFlag 0 31 1 = false ∧
      (List.range 1).filter (fun i => decide (asg02.shardOf (entMap (x04.sheetEnt 0 31)) ((entPos0 (x04.sheetEnt 0 31) + i) / 16) = asg02.shard)) = [0] ∧
      mapCount (x04.mapRec 0 asg02 5) = 0 ∧ x04.freeSlots 0 0 = 0 ∧ x04f.freeSlots 0 0 = 1 ∧
      entRelv (x04.sheetEnt 0 31) = true ∧ (∀ j, j < 31 → entRelv (x04.sheetEnt 0 j) = false) := by decide +kernel
theorem test_scatter_takes_a_slot : ran 40 (.xfrScatter 0 31 0 ⟨2, []⟩ 2 1) x04f (fun t => t.freeSlots 0 0 == 0) = true := by decide +kernel
theorem test_scatter_without_slot_reports : ran 40 (.xfrScatter 0 31 0 ⟨2, []⟩ 2 1) x04 (fun t => t.wordFlag 0 31 4 && t.net.length == 1) = true := by
  decide +kernel
theorem witness_MessagesAndDigests : x04.coreOk 0 = true ∧ x04.partOf 0 = some 0 ∧ State.reset.partOf 0 = none ∧ (x04.partAt 0).digestsOn = false ∧
    ({ x04 with parts := [(0, { x04.part 0 with digestsOn := true, dir := [(0, { digRecords := 1 })] })] }.partAt 0).digestsOn = true ∧
    yes (.xfrSignal 0 65535 3) x04 (fun t => t.net.map (·.msg) == [.vc3 (.sync 65535 3)]) = true ∧
    yes (.xfrEmit 0 31) x04 (fun t => t.net.length == 1) = true := by decide +kernel

/-! ## Shelf, stall wave, beats -/

def upd0 (s : State) (f : Core → Core) : State := s.updCore 0 f
def prt (f : Part → Part) : State := (atCyc ((base.setPart 0 (f part0))) 1000)
def line64 (b : BitVec 8) : Bytes := List.replicate 64 b
def u05 : UAcc := { src := .sheet, space := 0, off := 0x3EFFC0, act := .write (line64 7), at_ := 0 }
def s05 : State := upd0 run0 (fun k => { k with uq := [u05], scoreBad := [3], missed := [3] })
def s05w : State := upd0 run0 (fun k => { k with wback := [(0, 5)] })
theorem witness_ShelfServiceAndScoreCodewords :
    s05.retained 0 = false ∧ (s05.core 0).uq = [u05] ∧ firstOf ((s05.core 0).uq.filter (fun u => decide (u.at_ ≤ s05.cyc))) 4 = some u05 ∧
      bayFree (s05.busyBays 0 ++ (s05.core 0).wbBays s05.cyc) u05 = true ∧ u05.off % 64 = 0 ∧ (s05.core 0).uAt ≠ s05.cyc + 1 ∧
      s05.coreAt 0 0 = some 0 ∧ s05.partOf 0 = some 0 ∧ (s05w.busyBays 0).contains 1 = false ∧ fget 0 (s05w.core 0).wbAt 1 ≠ s05w.cyc + 1 ∧
      yes (.uPortGrant 0 []) s05 (fun t => (t.core 0).uq == [] && t.rd (wa spShelf 0 0x3EFFFF) 1 == [7] && t.full 0 spShelf 0xFBFF) = true ∧
      yes (.shelfCorrectedWriteback 0 1) s05w (fun t => (t.core 0).wback == []) = true ∧
      yes (.uSlotGroupEnd 0 (s05.core 0).missed) s05 (fun t => t.fld (t.sreg 0 0x892) 23 8 == 1) = true := by decide +kernel
/-- R176: in a group of 8 cycles in which a bay is used in each, the bay had no U-slot. -/
theorem test_slots : ((List.range 8).foldl (fun k t => k.noteSlots t [{ port := 0, line := 4 * t + 2, wide := true }]) ({} : Core)).missed = [2] := by
  decide +kernel
/-- R179: at VL retention nothing is granted. -/
theorem test_retention_holds_the_port : still (.uPortGrant 0 []) (s05.setFld (rPwr 0x200) 2 0 3) = true := by decide +kernel
theorem witness_ScoreCodewords : s05.partOf 0 = some 0 ∧ (s05.core 0).scoreBad.contains 3 = true ∧ (s05.core 0).scoreBad.contains 0 = false ∧
    s05.icUp (s05.physIsle (cIsle 0)) = true ∧ decodeErr 0xFFFF00000000FFFF = .bad ∧ decodeErr 1 ≠ .bad ∧ decodeErr 1 ≠ .clean ∧
    yes (.scoreEccUncorrectable 0 ⟨0, 0xFFFF00000000FFFF⟩) s05 (fun t => (t.part 0).items.map (·.cause) == [6]) = true ∧
    yes (.scoreEccUncorrectable 0 ⟨0, 1⟩) s05 (fun t => t.fld (t.sreg 0 0x8A0) 15 0 == 1) = true ∧
    yes (.scoreCodewordRewritten 0 3 (line64 1)) s05 (fun t => (t.core 0).scoreBad == []) = true := by decide +kernel
/-- A partition with an item of cause 5 at its root, one that has none, and one whose RUN is low. -/
def w05 : State := prt (fun q => { q with items := [{ core := 0, cause := 5, up := 900 }] })
def w05n : State := prt id
def w05l : State := upd0 (prt (fun q => { q with run := false, waves := [(900, false)] })) id
def w05f : State := upd0 w05n (fun k => { k with frozen := true, frozenAt := 3 })
/-- The same, with the next sheet in place and an item that waits for it. -/
def w05s : State := prt (fun q => { q with sheet := some [], items := [{ core := 0, cause := 4, up := 900 }] })
theorem witness_StallWave :
    w05.partOf 0 = some 0 ∧ (w05.part 0).run = true ∧ 2 ≤ w05.cyc ∧ w05.busyAt (w05.part 0) (w05.cyc - 2) = true ∧
      yes (.stop 0) w05 (fun t => (t.part 0).waves == [(1000, false)]) = true ∧
      w05l.busyAt (w05l.part 0) 998 = false ∧ yes (.go 0) w05l (fun t => (t.part 0).run) = true ∧
      (w05l.partAt 0).runAt (w05l.dist (w05l.partAt 0) 0) 1000 = false ∧ yes (.coreFreeze ⟨0, false⟩) w05l (fun t => (t.core 0).frozen) = true ∧
      (w05f.partAt 0).runAt (w05f.dist (w05f.partAt 0) 0) 1000 = true ∧ yes (.coreResume ⟨0, false⟩) w05f (fun t => !(t.core 0).frozen) = true ∧
      yes (.coreFreeze ⟨0, true⟩) w05n (fun t => (t.reg (rIsle 0 0x8B5)).getLsbD 4) = true ∧ (w05s.partAt 0).sheetReady = true ∧
      yes (.stallItemComplete 0 4) w05s (fun t => (t.part 0).items.map (·.down) == [some 1000]) = true := by
  decide +kernel
def h05 : State := prt (fun q => { q with held := true })
theorem witness_StallWave_start : (h05.part 0).liveValid = true ∧ (h05.part 0).wop = none ∧ (h05.part 0).recovery = none ∧
    (h05.part 0).unloading = false ∧ yes (.start 0) h05 (fun t => (t.part 0).startAt == some 1000) = true := by decide +kernel
/-- A sheet of one stage and two lanes is in place, the beat's 100 score cycles are over; and a first beat after START. -/
def b05 : State := prt (fun q => { q with lanes := 2, score := 100, sheet := some [[line64 0, line64 5]], beat := 41 })
def b05s : State := prt (fun q => { q with sheet := some [[line64 0]], startAt := some 960, begun := false })
theorem witness_BeatBegins :
    (b05.part 0).sheetReady = true ∧ (b05.part 0).beatLen.getD (b05.part 0).variant 0 ≤ (b05.part 0).score ∧
      (b05s.part 0).startAt = some 960 ∧ 960 + (b05s.part 0).dmax ≤ b05s.cyc ∧ (b05s.part 0).sheetReady = true ∧ (b05s.part 0).wop = none := by
  decide +kernel
/-- R223, R202: at a boundary a core's pointers are cleared and the next sheet becomes the current one. -/
theorem test_core_boundary :
    ((at0 (ptr0 b05 3 77) spShelf (nextSheetOff 0) [9]).coreBoundary 0).ptr 0 3 = 0#48 ∧
    ((at0 (ptr0 b05 3 77) spShelf (nextSheetOff 0) [9]).coreBoundary 0).rd (wa spShelf 0 (sheetOff 0)) 1 = [9] := by decide +kernel
def f05 : State := { prt (fun q => { q with frameStart := 96, pausedSlots := [15], score := 98 }) with cyc := 96 + 32768 - 96 }
def f05s : State := { f05 with cyc := 96 + 2048 * 15 - 2 }
/-- A sheet line for lane 1 of core 0 that has arrived. -/
def l05 : State := { b05 with net := [{ id := 9, vc := 3, msg := .vc3 (.sheetLine 0 1 (line64 5)), here := 0, route := [], at_ := 900 }], netId := 10 }
theorem witness_SheetsAndPauses :
    (f05.part 0).sheetReady = false ∧ (f05.part 0).openItem 4 = false ∧ (f05.part 0).beatLen.getD (f05.part 0).variant 0 ≤ (f05.part 0).score + 2 ∧
      f05.partOf (f05.rootOf (f05.part 0)) = some 0 ∧
      yes (.laneSheetIncomplete 0) f05 (fun t => (t.part 0).items.map (·.cause) == [4]) = true ∧
      (l05.net.map (fun l => l.there l05.cyc)) = [true] ∧ l05.retained 0 = false ∧
      yes (.laneSheetDelivery 0 1 (line64 5)) l05 (fun t => (t.core 0).uq.map (fun u => (u.off, u.src)) == [(nextSheetOff 1, .sheet)] && t.net == []) = true ∧
      (f05.part 0).frameStart ≤ f05.cyc + (2 * (f05.part 0).dmax + 16) ∧
      (f05.cyc + (2 * (f05.part 0).dmax + 16) - (f05.part 0).frameStart) % 32768 = 0 ∧ f05.duty 0 < 32 ∧
      (b05s.part 0).frameKeep = false ∧ (997 : Nat) + 3 = 960 + (b05s.part 0).dmax ∧
      (f05s.cyc + 2 - (f05s.part 0).frameStart) % 32768 = 2048 * 15 ∧
      yes (.pauseSlot 0 15) f05s (fun t => (t.part 0).items.map (·.cause) == [5]) = true := by decide +kernel

/-! ## Mesh, straits, cabinet -/

/-- A scheduled line has arrived at core 0; a request and a line of a flow (from core 0 to core 1's shelf or cabinet) and four VC3 messages too. -/
def l06 : MeshLine := { src := 1, core := 0, space := 0, line := 9, data := line64 3, fill := true, poison := true, lane := 31, last := true }
def fl06 (sp : Nat) : Flow := { id := 7, core := 0, lane := 0, lines := [{ src := wa 0 0 64, dst := wa sp 1 128 }, { src := wa 0 0 128, dst := wa sp 1 192 }] }
def nl06 (id vc here : Nat) (m : NetMsg) : NetLine := { id := id, vc := vc, msg := m, here := here, route := [], at_ := 0 }
def n06 (sp : Nat) : State :=
  { run0 with flows := [fl06 sp], netId := 20
              net := [nl06 1 0 0 (.vc0 l06), nl06 2 2 0 (.request 7), nl06 3 2 1 (.flowLine 7 0 (line64 4) false), nl06 4 3 southHarbour (.vc3 (.sync 65535 1)),
                nl06 5 3 southHarbour (.vc3 (.laneState 0 0 2 (line64 1))), nl06 6 3 0 (.vc3 (.void 0 5)), nl06 7 3 0 (.vc3 (.sheetLine 0 31 (line64 2)))] }
def n06z : State := upd0 (n06 0) (fun k => { k with frozen := true })
theorem witness_LinesAndLinks :
    (n06 0).lineOf 1 = some (nl06 1 0 0 (.vc0 l06)) ∧ (nl06 1 0 0 (.vc0 l06)).there (n06 0).cyc = true ∧ ((n06 0).core 0).frozen = false ∧
      (0 : Nat) ≤ ((n06 0).core 0).clk ∧ (n06 0).lineOf 99 = none ∧ isHarbour 0 = false ∧ decodeErr 0x10000000000010000001#544 = .bad ∧
      yes (.vc0FlitDelivery 0 9 1) (n06 0) (fun t => t.poisoned 0 31 && t.net.length == 6 && (lands 1 t).rd (wa spShelf 0 (64 * 9)) 1 == [3]) = true ∧
      still (.vc0FlitDelivery 0 9 1) n06z = true ∧ still (.linkLineArrival 1 0) (n06 0) = true ∧
      yes (.linkLineArrival 1 0x10000000000010000001#544) (n06 0) (fun t => (t.reg (rIsle 0 0x8B5)).getLsbD 5) = true := by decide +kernel
/-- Two scheduled lines at core 1 for core 0, of inputs 2 and 3, in the same score cycle. -/
def v06 (id inp : Nat) : NetLine := { id := id, vc := 0, msg := .vc0 l06, here := 1, inp := inp, route := run0.meshRoute 1 0, at_ := 0 }
def r06 : State := { run0.updCore 1 (fun k => { k with live := true }) with net := [v06 1 3, v06 2 2], netId := 3 }
theorem witness_LinksArbitrate :
    r06.net = [v06 1 3] ++ v06 2 2 :: [] ∧ (r06.leaving (v06 2 2)).isSome = true ∧ (r06.leaving (v06 1 3)).isSome = true ∧
      (r06.meshRoute 1 0).map (fun h => (linkKey 1 h, h.strait)) = [(4 * 1 + 3, false)] ∧
      ((r06.linkVc0 7).net.map (fun l => (l.id, l.here, l.at_))) = [(2, 0, 2)] ∧
      ((r06.linkVc0 7).fld (r06.sreg 1 0x8B4) 23 16) = 2 ∧ isHarbour 0 = false := by decide +kernel
/-- R273: while VC3 has had 2 cycles of a group, VC2 goes first; a lane-sheet line goes before an older message of VC3. -/
theorem test_link_turns :
    (vc3Next [nl06 1 3 0 (.vc3 (.sync 1 1)), nl06 2 3 0 (.vc3 (.sheetLine 0 1 []))]).map (·.id) = some 2 ∧
    (vc2Next 4 [nl06 1 2 0 (.request 3), nl06 2 2 0 (.request 9), nl06 3 2 0 (.request 5)]).map (·.id) = some 3 := by decide +kernel
/-- R265: from core (0, 0) of isle 0 to core (1, 2) of isle 1: 14 steps along the row, one of them over a strait, then one along the column. -/
theorem test_route : (run0.meshRoute 0 (mkCore 1 1 2)).length = 15 ∧ routeS (run0.meshRoute 0 (mkCore 1 1 2)) = 1 ∧
    (run0.meshRoute 0 (mkCore 1 1 2)).map (·.dir) = List.replicate 14 1 ++ [2] := by decide +kernel
/-- A flit whose check is due in cycle 9; one refused once; one refused four times, with spares left and without. -/
def sf06 (fails total : Nat) (nak : Bool) : StraitFlit := { line := 1, second := false, launch := 0, fails := fails, total := total, nak := nak }
def st06 (f : StraitFlit) (spares : Nat) : State :=
  { run0.setFld (rStrait 0 1) 25 24 spares with strait := [(chKey 0 1 11, { buf := [f] })], cyc := 9 }
/-- A line that is still on the strait in the cycle of its delivery. -/
def late06 : State := { st06 (sf06 1 1 true) 2 with net := [{ nl06 1 0 0 (.vc0 l06) with cross := some (chKey 0 1 11) }] }
theorem witness_StraitRetries :
    (fget ({} : StraitCh) (st06 (sf06 0 0 false) 2).strait (chKey 0 1 11)).buf[0]? = some (sf06 0 0 false) ∧
      (fget ({} : StraitCh) run0.strait (chKey 79 3 11)).buf[0]? = none ∧ (9 : Nat) = 0 + straitCheckAt 0 ∧
      crc32 (1 % 2 ^ 304) 304 0 ≠ 1 / 2 ^ 304 ∧
      yes (.straitCrcCheck 0 1 ⟨11, 0⟩ 1) (st06 (sf06 0 0 false) 2) (fun t => (fget ({} : StraitCh) t.strait (chKey 0 1 11)).buf == [sf06 1 1 true]) = true ∧
      yes (.straitNak 0 1 ⟨11, 0⟩) (st06 (sf06 1 1 true) 2) (fun t => t.fld (rStrait 0 1) 15 0 == 1) = true ∧
      yes (.straitNak 0 1 ⟨11, 0⟩) (st06 (sf06 2 2 true) 2) (fun t => t.fld (rStrait 0 1) 23 16 == 1) = true ∧
      yes (.straitNak 0 1 ⟨11, 0⟩) (st06 (sf06 4 4 true) 2) (fun t => t.fld (rStrait 0 1) 25 24 == 1 && t.fld (rStrait 1 3) 25 24 == 1) = true ∧
      yes (.straitNak 0 1 ⟨11, 0⟩) (st06 (sf06 4 4 true) 0) (fun t => t.fld (rStrait 0 1) 26 26 == 1) = true ∧
      late06.partOf 0 = some 0 ∧ ({ nl06 1 0 0 (.vc0 l06) with cross := some (chKey 0 1 11) } : NetLine).crosses 0 1 = true ∧ late06.lateLine { nl06 1 0 0 (.vc0 l06) with cross := some (chKey 0 1 11) } (late06.core 0).clk = true ∧
      yes (.straitRetryLate 0 1 1) late06 (fun t => (t.part 0).items.map (·.cause) == [3]) = true := by decide +kernel
theorem witness_RemoteDeliveries :
    (n06 0).flows.find? (fun f => decide (f.id = 7)) = some (fl06 0) ∧ (n06 0).retained 0 = false ∧ (n06 0).retained 1 = false ∧
      (∀ x ∈ (n06 0).net, x.id ≠ 99) ∧ (n06 0).schUp = true ∧ ((n06 0).reg64 (rCwy (0x40 + 2 * 0))) / 2 ^ 15 % 2 = 0 ∧
      yes (.vc2LineDelivery 0 2) (n06 0) (fun t => (t.core 0).uq.map (·.act) == [.flow 7 0]) = true ∧
      yes (.vc2LineDelivery 1 3) (n06 0) (fun t => (t.core 1).uq.map (·.off) == [128]) = true ∧
      (n06 1).cabReach 1 128 false = some 128 ∧ (n06 1).cabWritable 1 128 false = true ∧
      yes (.vc2LineDelivery 1 3) (n06 1) (fun t => (t.core 1).claims.map (·.off) == [128]) = true ∧
      yes (.vc3MessageDelivery 4) (n06 0) (fun t => fget 0 t.sync 65535 == 1) = true ∧
      yes (.vc3MessageDelivery 5) (n06 0) (fun t => (t.part 0).words == [(2, line64 1)]) = true ∧
      yes (.vc3MessageDelivery 6) (n06 0) (fun t => t.net.length == 6) = true ∧
      yes (.vc3MessageDelivery 7) (n06 0) (fun t => (t.core 0).uq.map (·.off) == [nextSheetOff 31]) = true ∧
      still (.vc3MessageDelivery 7) ((n06 0).setFld (rPwr 0x200) 2 0 3) = true := by
  decide +kernel
def d06 : State := upd0 run0 (fun k => { k with debts := [(0, 8), (15, 2)], rowWait := [15 * 4096 + 7]
                                                claims := [{ prio := 2, off := 64, kind := .flowWrite (line64 6) }], patrol := 0x15FFFF })
def d06z : State := upd0 (run0.setPart 0 { part0 with items := [{ core := 0, cause := 2, up := 0 }] }) (fun k =>
  { k with debts := [(3, 2)], frozen := true, frozenAt := 0 })
theorem witness_RefreshDebts : run0.isleState 0 = 2 ∧ run0.isleState 99 ≠ 2 ∧ run0.isleState 99 ≠ 3 ∧ 0 ∈ run0.slicesOf 0 ∧ bareSlice 0 168 ∈ run0.slicesOf 0 ∧
    (d06.core 0).debts = [(0, 8), (15, 2)] ∧ (∀ c ∈ (d06.core 0).claims, bankOf (c.off / 64) ≠ 15) ∧ d06.bankBusy 0 15 = false ∧
    yes (.bankRefresh 0 15) d06 (fun t => fget 0 (t.core 0).debts 15 == 1) = true ∧
    (upd0 d06 (fun k => { k with due := [(15, 0)] })).bankBusy 0 15 = true ∧
    d06z.outstanding 0 2 = true ∧ 0 + 32 * (d06z.core 0).maxDebt ≤ (atCyc (d06z) 64).cyc ∧
    yes (.collisionRefreshDone 0) (atCyc (d06z) 64) (fun t => (t.core 0).debts == []) = true := by decide +kernel
theorem witness_CabinetLines :
    stops (.foregroundSegmentLine 0 0x160000 0) run0 .address = true ∧ 64 * 0x15FFFF < 0x5800000 ∧ run0.isBad 0 spCabinet (64 * 0x15FFFF) = false ∧
      ((upd0 d06 (fun k => { k with due := [(5, 0)] })).core 0).due.any (fun d => decide (d.1 = 5)) = true ∧
      yes (.foregroundSegmentLine 0 5 0x10000000000010000001#544) (upd0 d06 (fun k => { k with due := [(5, 0)] }))
        (fun t => t.isBad 0 spCabinet (64 * 5) && (t.core 0).due == []) = true ∧
      d06.refreshing 0 = false ∧ d06.fetchWaits 0 = false ∧ d06z.refreshing 0 = true ∧
      d06.icUp (d06.isleOf 0) = true ∧ yes (.backgroundClaim 0 0) d06 (fun t => (t.core 0).claims == []) = true ∧
      (d06.core 0).rowWait.contains (15 * 4096 + 7) = true ∧ (∀ c ∈ (d06.core 0).claims, c.kind ≠ .rowCopy) ∧
      yes (.rowRetirement 0 15 7) d06 (fun t => fget 0 (t.core 0).spareUsed 15 == 1) = true := by decide +kernel
theorem test_patrol_wraps : yes (.backgroundClaim 0 0) (upd0 d06 (fun k => { k with claims := [] })) (fun t => (t.core 0).patrol == 0) = true := by
  decide +kernel
/-- R301: the write buffer holds its lines through a refresh of R300. -/
theorem test_buffer_holds : still (.writeBufferDrain 0) (upd0 d06z (fun k => { k with wbuf := [4] })) = true ∧
    yes (.writeBufferDrain 0) (upd0 d06 (fun k => { k with wbuf := [4] })) (fun t => (t.core 0).wbuf == []) = true := by decide +kernel
/-- A delivery that names another place than the line has arrived at does nothing. -/
theorem test_delivery_names_its_line : still (.vc0FlitDelivery 1 9 1) (n06 0) = true ∧ still (.vc0FlitDelivery 0 8 1) (n06 0) = true ∧
    still (.vc2LineDelivery 0 3) (n06 0) = true ∧ still (.laneSheetDelivery 0 31 (line64 3)) (n06 0) = true ∧
    still (.straitRetryLate 0 2 1) late06 = true := by decide +kernel

def le (n v : Nat) : Bytes := natLe n v
/-- A layout image of one isle: 144 equal core records, one score of one empty bundle, one beat of one cycle. -/
def recImg : Bytes := le 4 9792 ++ le 4 32 ++ List.replicate 52 0 ++ [255, 255, 255, 255]
def tailImg : Bytes := List.replicate 128 0 ++ (List.replicate 144 recImg).flatten ++ List.replicate 320 0 ++ List.replicate 32 0
def headImg (rows : Nat) : Bytes :=
  le 4 0x31594C51 ++ le 2 1 ++ [72, 0] ++ le 1 rows ++ [1, 0, 0] ++ le 2 200 ++ [1, 1] ++ le 2 1 ++ [0, 0] ++ List.replicate 8 255 ++ le 4 0 ++
    le 4 1 ++ List.replicate 28 0 ++ le 8 256 ++ List.replicate 24 0
def dgImg : Bytes := [113, 138, 118, 244, 179, 34, 27, 244, 164, 77, 195, 185, 136, 153, 240, 130, 126, 174, 2, 51, 179, 123, 225, 225, 228,
  132, 213, 128, 161, 227, 141, 183]
def img07 : Bytes := headImg 1 ++ dgImg ++ tailImg

/-! ## Loads and weights -/

def ld07 (phase : Nat) : LoadSt := { addr := 0, len := 256, part := 7, row := 0, col := 0, phase := phase }
def l07 (phase : Nat) : State := { base with loads := [ld07 phase] }
theorem witness_LoadSteps :
    (l07 1).loadOf 7 = some (ld07 1) ∧ (l07 1).schUp = true ∧ (l07 1).ideOk 0 = true ∧ 8 < (ld07 1).row + hdrRows (headImg 9) ∧
      yes (.loadHeaderRead 7 (some (headImg 9))) (l07 1) (fun t => t.regN (rSch 0xF07) == 0x12 + 0xFFFF * 256 + 2 ^ 24) = true ∧
      hdrRows (headImg 1) = 1 ∧ hdrCols (headImg 1) = 1 ∧ (l07 1).edgeFail = [] ∧
      (l07 1).isleOut 0 = false ∧ (l07 1).partOfIsle 0 = none ∧ (l07 1).loadAt 0 = none ∧
      yes (.loadHeaderRead 7 (some (headImg 1))) (l07 1) (fun t => t.regN (rSch 0xF07) == 1 + 2 * 2 ^ 24) = true ∧
      (l07 2).loadOf 7 = some (ld07 2) ∧ yes (.loadTransferDone 7 none) (l07 2) (fun t => t.loads == []) = true ∧
      (l07 4).loadOf 7 = some (ld07 4) ∧
      (∀ i ∈ (l07 4).partIsles (layoutPart ((l07 4).staged (ld07 4)) 0 256 0 0), (l07 4).icUp ((l07 4).physIsle i) = true) := by decide +kernel
theorem test_image_in_order : formatErr img07 = none ∧ (coreRecOf img07 143).scoreLen = 32 ∧
    walk (List.replicate 32 0) (fun _ => true) 1 2 0 0 [] = true ∧ regionOk img07 false { scoreOff := 9792, scoreLen := 32 } = true := by decide +kernel
def q07 (n : Nat) : State := base.setPart 7 { part0 with asked := n }
theorem witness_UnloadAndPartitionReset :
    ((q07 1).part 7).wop = none ∧ ((q07 1).part 7).staging = none ∧ ((q07 1).part 7).idle = false ∧
      (((q07 1).updPart 7 (fun q => { q with held := true })).part 7).idle = true ∧ (q07 2).schUp = true ∧ (q07 2).ideOk 0 = true ∧
      ((q07 2).part 7).liveValid = true ∧ yes (.unload 7) (q07 1) (fun t => (t.part 7).unloading) = true ∧
      yes (.partitionReset 7 none) (q07 2) (fun t => (t.part 7).halted) = true := by decide +kernel
/-- A weight image's header alone: its length is 256. -/
def wimg07 : Bytes := List.replicate 16 0 ++ le 8 256 ++ List.replicate 232 0
def g07 (o : Nat) (st : Option Staging) : State := base.setPart 7 { part0 with other := o, staging := st }
theorem witness_WeightStaging :
    (g07 0 none).blocksOpen = true ∧ (State.reset).blocksOpen = false ∧ ((g07 0 none).part 7).busy = false ∧
      ((g07 1 (some {})).part 7).busy = true ∧ (g07 1 (some {})).schUp = true ∧ (g07 1 (some {})).ideOk ((g07 1 (some {})).dmaFn 7) = true ∧
      ((g07 1 (some {})).setFld (rSch (0x1002 + 8 * 7)) 3 0 15).fld (rSch (0x1002 + 8 * 7)) 3 0 = 15 ∧
      256 ≤ wimg07.length ∧ wimgLen wimg07 ≤ wimg07.length ∧ (g07 1 (some { img := wimg07 })).writesWait 0 = false ∧
      Sha.sha256 ((wimg07.take (wimgLen wimg07)).drop 128) ≠ wimgDigest wimg07 ∧
      yes (.stage 7) (g07 0 none) (fun t => (t.part 7).other == 1) = true ∧
      yes (.release 7) (g07 3 none) (fun t => (t.part 7).other == 0) = true ∧
      yes (.abandon 7) (g07 1 (some {})) (fun t => (t.part 7).wswStatus == 0x29) = true ∧
      yes (.stagingShareWrite .pf 7 15) base (fun t => t.fld (rSch (0x1002 + 8 * 7)) 3 0 == 15) = true := by decide +kernel
theorem witness_WeightStaging_cores : ∀ c ∈ (g07 1 (some { img := wimg07 })).partCores ((g07 1 (some { img := wimg07 })).part 7),
    (g07 1 (some { img := wimg07 })).writesWait c = false := by decide +kernel
def s07 (w : List (List Nat)) : State := base.setPart 7 { part0 with other := 2, tag := 1, otag := 9, held := true, wop := some { op := 2, step := 4, waves := w } }
theorem witness_WeightSwaps :
    ((g07 2 none).part 7).liveValid = true ∧ ((g07 2 none).part 7).unloading = false ∧
      yes (.swap 7) (g07 2 none) (fun t => (t.part 7).wop == some { op := 2, step := 1 }) = true ∧
      yes (.rollback 7) (g07 3 none) (fun t => (t.part 7).wop == some { op := 3, step := 1 }) = true ∧
      (∀ i ∈ [0], (s07 [[0]]).slotBad ((s07 [[0]]).dirCore ((s07 [[0]]).part 7) i) ((s07 [[0]]).part 7).sourceSlot
        ((s07 [[0]]).afmtOfSlot ((s07 [[0]]).dirCore ((s07 [[0]]).part 7) i) ((s07 [[0]]).part 7).sourceSlot) = false) ∧
      ((s07 [[0]]).part 7).recovery = none ∧ (0 : Nat) ∈ [0] := by decide +kernel
theorem test_last_wave_switches : yes (.rewriteWaveDone 7 none) (s07 [[0]]) (fun t =>
    (t.part 7).liveSlot == 1 && (t.part 7).other == 3 && (t.part 7).otag == 1 && (t.part 7).tag == 9) = true := by decide +kernel
/-- Bytes that are no image at all fail the first check (Table 7-9: a length that is not the descriptor's). -/
theorem witness_LoadSteps_more : (l07 4).stagingWaits (ld07 4) = false ∧ (l07 2).ideOk 0 = true ∧ (l07 2).checkImage [] 0 256 0 0 = some (0x14, 0) ∧
    hdrRows img07 ≠ 0 ∧ ((q07 1).updPart 7 (fun q => { q with held := true, unloading := true })).part 7 ≠ (q07 1).part 7 ∧
    ((g07 1 (some { limit := some 0 })).part 7).staging = some { limit := some 0 } ∧ base.fld (rSch (0x1002 + 8 * 7)) 3 0 ≠ 0 := by decide +kernel

/-! ## Critical commands, attestation, IDE -/

/-- The BMC's record that raises the limit to 20,000 W with counter 5, without its tag; the owned device that takes it. -/
def rec08 (ctr : Nat) (tag : Bytes) : Bytes := [2, 1, 0, 0, 0, 0, 0, 0] ++ le 8 ctr ++ le 8 0 ++ le 4 20000 ++ List.replicate 20 0 ++ tag
def own08 : State := ((base.setFld (rSec 0) 0 0 1).setRegN (rSec 4) 15)
def tag08 : Bytes := [127, 138, 31, 217, 199, 120, 198, 51, 173, 16, 141, 170, 45, 189, 180, 73]
def r08 : Bytes := rec08 5 tag08
theorem witness_CommandChecks :
    r08.length = 64 ∧ fieldN r08 0 1 = 2 ∧ fieldN r08 1 1 = 1 ∧ own08.secUp = true ∧ own08.fld (rSec 0) 1 1 = 0 ∧ own08.fld (rSec 0) 0 0 = 1 ∧
      base.fld (rSec 0) 0 0 = 0 ∧ own08.fld (rSec 4) 0 0 = 1 ∧ fieldN r08 16 8 = own08.reg64 (rSec 2) ∧
      own08.reg64 (rSec 0x26) < fieldN r08 8 8 ∧ fieldN (rec08 0 tag08) 8 8 ≤ own08.reg64 (rSec 0x26) ∧ own08.argOk 1 r08 = true ∧
      own08.devState ≠ 6 ∧ own08.devState ≠ 9 ∧ own08.devState ≠ 10 := by decide +kernel
theorem witness_CommandChecks_tag : (r08.drop 48).take 16 = (Sha.hmac own08.cmdKey (r08.take 48)).take 16 ∧
    (List.replicate 16 0 : Bytes) ≠ tag08 := by decide +kernel
theorem test_limit_raised : yes (.raisePowerLimit (.bmc r08)) (own08.setFld (rPwr 0) 14 0 10000) (fun t => t.fld (rPwr 0) 14 0 == 20000) = true := by
  decide +kernel
/-- A load descriptor of partition 7, the record that carries its digest, the state that holds the record in its check stage. -/
def desc08 (addr : Nat) : Bytes := le 8 addr ++ le 4 256 ++ [7, 0, 0] ++ List.replicate 17 0
def recOp (op : Nat) (arg : Bytes) : Bytes := [BitVec.ofNat 8 op] ++ List.replicate 23 0 ++ arg ++ List.replicate (40 - arg.length) 0
def go08 (op : Nat) (arg : Bytes) : State := { own08 with secRec := some (recOp op arg) }
def dig08 : Bytes := [149, 243, 171, 97, 26, 31, 111, 88]
theorem witness_CriticalCommandsAct :
    (go08 3 (le 8 0 ++ dig08)).takeCmd .pf 3 = (own08, some (recOp 3 (le 8 0 ++ dig08))) ∧ (desc08 4096).length = 32 ∧
      zeros (desc08 4096) 15 32 = true ∧ fieldN (desc08 4096) 12 1 = 7 ∧ fieldN (desc08 4096) 0 8 % 4096 = 0 ∧ fieldN (desc08 0) 0 8 = 0 ∧
      own08.loadOf 7 = none ∧ own08.devState = 7 ∧ (own08.part 7).loaded = false ∧ (run0.part 0).loaded = true ∧
      (go08 4 [128]).takeCmd .pf 4 = (own08, some (recOp 4 [128])) ∧ fieldN (recOp 4 [128]) 24 1 = 2 ^ 7 ∧ own08.fld (rSec 4) 1 1 = 1 ∧
      (own08.part 7).debug = false ∧ base.fld (rSec 4) 1 1 = 0 ∧ own08.secRec = none := by decide +kernel
def thr08 : State := (go08 3 (le 8 0 ++ dig08)).setFld (rSys 1) 3 0 5
theorem witness_CriticalCommandsAct_state :
    ((thr08.takeCmd .pf 3).2 = some (recOp 3 (le 8 0 ++ dig08)) ∧ (thr08.takeCmd .pf 3).1.loadOf 7 = none ∧
      (thr08.takeCmd .pf 3).1.devState ≠ 7 ∧ (thr08.takeCmd .pf 3).1.devState ≠ 8) := by decide +kernel
theorem witness_CriticalCommandsAct_digest : (Sha.sha256 (desc08 4096)).take 8 = ((recOp 3 (le 8 0 ++ dig08)).drop 32).take 8 := by decide +kernel
theorem witness_CriticalCommandsAct_rest :
    yes (.enterDebugMode .pf) (go08 4 [128]) (fun t => (t.part 7).debug && t.debugCount == 1) = true ∧
      yes (.raisePowerLimit .pf) ((go08 2 (le 4 30000)).setFld (rPwr 0) 14 0 100) (fun t => t.fld (rPwr 0) 14 0 == 25000) = true ∧
      (go08 1 (le 8 0 ++ le 4 77)).takeCmd .pf 1 = (own08, some (recOp 1 (le 8 0 ++ le 4 77))) ∧
      yes (.firmwareUpdate .pf) (go08 1 (le 8 0 ++ le 4 77)) (fun t => t.fwu.isSome && t.regN (rSys 0x58) == 1 + 8 * (1 - own08.fld (rSys 5) 0 0)) = true ∧
      yes (.keyRotation .pf { readOk := true, sigOk := true, version := 0, digest8 := [], identOk := true, owner := .valid 3 0 [1] [] }) (go08 5 [])
        (fun t => t.cmdKey == [1] && t.regN (rSec 4) == 3) = true ∧
      yes (.sparePolicyOverride .pf) (go08 6 [0x11]) (fun t => t.fld (rSys 0x40) 0 0 == 1) = true := by decide +kernel
def fw08 : State := { own08 with fwu := some { len := 4, digest8 := [1], floor := true, pldm := false, at_ := 0, window := false } }
def img08 : ImageFacts := { readOk := true, sigOk := true, version := 9, digest8 := [1], identOk := true, owner := .erased }
def dbg08 (f : Part → Part) : State := base.setPart 0 (f { part0 with debug := true })
theorem witness_UpdateDebugAndLock :
    fw08.fwu.isSome = true ∧ fw08.secUp = true ∧ fw08.regN (rSec 5) < img08.version ∧
      yes (.firmwareUpdateDone img08) fw08 (fun t => t.regN (rSec 5) == 9) = true ∧
      ((dbg08 id).part 0).openItem 7 = false ∧ yes (.debugExit 0) (dbg08 id) (fun t => (t.part 0).debugAsk == some false) = true ∧
      yes (.debugExit 0) (dbg08 (fun q => { q with halted := true })) (fun t => !(t.part 0).debug) = true ∧
      (atCyc (own08.setFld (rSec 0) 1 1 1) 72000000000).now = own08.lockAt + 60000000000 ∧
      yes .lockoutExpiry (atCyc (own08.setFld (rSec 0) 1 1 1) 72000000000) (fun t => t.fld (rSec 0) 1 1 == 0) = true := by decide +kernel
def se08 (ok : Bool) : State := { own08 with sess := [(.doe, 3, ok), (.doe, 4, true)], ide := [(9, 1)] }
theorem witness_AttestationAnswers :
    own08.spdmReady .doe = true ∧ own08.spdmReady .mctp = true ∧ { own08 with linkUp := false }.spdmReady .doe = false ∧ 2 ≤ ((se08 true).sessOn .doe).length ∧ (own08.sessOn .mctp).length < 2 ∧
      (se08 false).sess.contains (.doe, 3, false) = true ∧ (se08 true).sessOpen .doe 3 = true ∧ (se08 true).sessOpen .mctp 3 = false ∧
      yes (.getVersion .doe) own08 (fun t => t.out == [.spdm .doe 4 [0x12]]) = true ∧
      yes (.keyExchange .doe 5) (se08 true) (fun t => t.out == [.spdm .doe 0x7F [0x0A]]) = true ∧
      yes (.getMeasurements .mctp 8) own08 (fun t => t.out == [.spdm .mctp 0x7F [1]]) = true ∧
      yes (.finish .doe 3 true) (se08 false) (fun t => t.sess.contains (.doe, 3, true)) = true ∧
      yes (.endSession .doe 3) (se08 true) (fun t => t.sess == [(.doe, 4, true)]) = true := by decide +kernel
theorem witness_IdeStreams : (se08 true).spdmReady .doe = true ∧ { se08 true with linkUp := false }.spdmReady .doe = false ∧ (se08 true).sessOpen .doe 4 = true ∧ (9 : Nat) ≤ 9 ∧ own08.sessOpen .doe 4 = false ∧
    fget 0 (se08 true).ide 9 = 1 ∧ yes (.kSetGo 4 9) (se08 true) (fun t => fget 0 t.ide 9 == 2) = true ∧
    yes (.keyProg 4 0 [7]) (se08 true) (fun t => fget [] t.ideKeys 0 == [7]) = true ∧
    yes (.ideFail 9) { se08 true with ide := [(9, 2)] } (fun t => fget 0 t.ide 9 == 3 && (t.reg (rSec 0x30)).getLsbD 3) = true := by decide +kernel

/-! ## Firmware processors, transactions -/

def fw09 (p : Proc) (st : Nat) : State := base.setFld (fwReg p) 1 0 st
def sch09 : State := (fw09 .sch 1).setPart 7 { part0 with wop := some { op := 2, step := 5 } }
def ic09 : State := { (fw09 (.ic 79) 1) with icAt := [(79, 1)], cyc := 1200000000 }
theorem witness_ProcessorRestarts :
    procOk (.ic 79) = true ∧ base.fld (fwReg (.ic 79)) 1 0 = 0 ∧ (fw09 .sec 1).fld (fwReg .sec) 1 0 = 1 ∧ (fw09 .pwc 2).fld (fwReg .pwc) 1 0 = 2 ∧
      yes (.watchdogExpiry (.ic 79)) base (fun t => t.fld (fwReg (.ic 79)) 1 0 == 1 && t.fld (fwReg (.ic 79)) 3 2 == 1) = true ∧
      yes (.firmwareTrap .pwc) base (fun t => t.fld (fwReg .pwc) 3 2 == 2) = true ∧
      (sch09.part 7).wop.isSome = true ∧ (sch09.part 7).recovery = none ∧
      yes (.processorResumed .sch) sch09 (fun t => (t.part 7).liveSlot == 1) = true ∧
      (go08 7 [3, 79]).takeCmd .pf 7 = (own08, some (recOp 7 [3, 79])) ∧ own08.takeCmd .pf 7 = (own08, none) ∧
      yes (.processorRestart .pf) (go08 7 [3, 79]) (fun t => t.fld (fwReg (.ic 79)) 3 2 == 3) = true ∧
      fget 0 ic09.icAt 79 = 0 + 1 ∧ ic09.icUp 79 = false ∧ 0 + 1000000000 ≤ ic09.now ∧
      yes (.icLate 79) ic09 (fun t => (t.reg (rSys 0x54)).getLsbD 4) = true := by decide +kernel

/-- The margin thresholds of the second isle are an RWT register; the PF's transaction is open with one word in its shadow. -/
def tx09 (t : Tx) : State := { base with tx := [(0, t)] }
def open09 : Tx := { owner := some .pf, shadow := [(rIsle 1 0x801, 5)] }
theorem witness_Transactions :
    slotOf .pf = some 0 ∧ slotOf .pwc = none ∧ base.blocksOpen = true ∧ base.target .pf (4 * (0x100000 + 0x4000 + 0x801)) = .reg (rIsle 1 0x801) ∧
      (regAcc (rIsle 1 0x801)).rwt ≠ 0 ∧ base.takes .pf (rIsle 1 0x801) = true ∧ reservedValue (rIsle 1 0x801) 33 = true ∧
      reservedValue (rIsle 1 0x801) 32 = false ∧ base.openSlot .pf = none ∧ (tx09 open09).openSlot .pf = some 0 ∧
      stops (.rwtWrite .pf (4 * (0x100000 + 0x4000 + 0x801)) 33) base .encoding = true ∧
      yes (.rwtWrite .pf (4 * (0x100000 + 0x4000 + 0x801)) 32) base (fun t => t.regN (rCfg 5) == 1) = true ∧
      yes (.rwtWrite .pf (4 * (0x100000 + 0x4000 + 0x801)) 32) (tx09 open09) (fun t => (t.txSlot 0).shadow == [(rIsle 1 0x801, 32)]) = true ∧
      (open09.shadow.map Prod.fst).Nodup ∧ commitPart (rIsle 1 0x801) = none ∧ (rIsle 1 0x801 < 0x4400 ∨ 0x4420 ≤ rIsle 1 0x801) ∧
      yes (.commit .pf) (tx09 open09) (fun t => t.regN (rIsle 1 0x801) == 5 && (t.txSlot 0).status == 1) = true ∧
      yes (.commit .pf) (tx09 { open09 with overflow := true }) (fun t => (t.txSlot 0).status == 5) = true ∧
      (atCyc (tx09 open09) 1200000000).now = 0 + 1000000000 ∧
      yes (.transactionTimeout 0) (atCyc (tx09 open09) 1200000000) (fun t => (t.txSlot 0).status == 4) = true := by decide +kernel
/-- A shadow of 512 words, none of them the one written. -/
theorem witness_Transactions_full : ((List.range 512).map (fun i => (100000000 + i, (0 : Word)))).length = 512 ∧
    (∀ x ∈ (List.range 512).map (fun i => (100000000 + i, (0 : Word))), x.1 ≠ rIsle 1 0x801) := by decide +kernel
theorem witness_Transactions_held : ∃ r p, commitPart r = some p ∧ (base.part p).loaded = false := ⟨rCwy 0x3F, 7, by decide +kernel, by decide +kernel⟩

/-! ## Firmware over PLDM, event log, sideband -/

def off10 : State := State.reset.setFld (rSys 1) 3 0 0
def pl10 (window : Bool) (data : Bytes) : State :=
  { own08 with fwu := some { len := 4, digest8 := [1], floor := false, pldm := true, at_ := 0, window := window, data := data } }
theorem witness_FirmwareUpdateAndSideband :
    own08.secReady = true ∧ own08.fwu = none ∧ (State.reset).secReady = false ∧ off10.devState = 0 ∧ own08.devState ≠ 0 ∧
      (pl10 true []).now < 0 + 60000000000 ∧ 0 + 60000000000 ≤ (atCyc (pl10 true []) 72000000000).now ∧
      yes (.requestUpdate 4) own08 (fun t => t.out == [.mctp 5 [0x8A]]) = true ∧
      yes (.requestUpdate 4) (pl10 true []) (fun t => t.out == [.mctp 5 [0]]) = true ∧
      yes (.requestFirmwareData 2 [8, 9, 10]) (pl10 false [6, 7]) (fun t => t.fwu.map (·.data) == some [6, 7, 8, 9]) = true ∧
      yes .cancelUpdate (pl10 true []) (fun t => t.fwu.isNone) = true ∧
      yes .pldmWindowExpiry (atCyc (pl10 true []) 72000000000) (fun t => t.fwu.isNone) = true ∧
      sensorReg 5 = false ∧ sensorReg (rTel 0x6FF) = true ∧
      yes (.getSensorReading (rTel 0x6FF)) base (fun t => t.out == [.mctp 2 [0, 0, 0, 0, 0]]) = true ∧
      yes (.getStateSensorReadings 0) base (fun t => t.out == [.mctp 2 [0, 7]]) = true ∧
      yes (.doeDiscovery 2) base (fun t => t.out == [.doe [2, 0]]) = true ∧
      yes (.eidAssignment 254) base (fun t => t.eid == 254) = true ∧
      yes .referenceClockLoss base (fun t => t.fld (rSys 4) 1 1 == 1) = true := by decide +kernel
def ev10 (c src : Nat) : EvRec := { cls := c, source := src }
def stg10 : State := { base with stag := [(79, { q := [ev10 3 79, ev10 4 79] })] }
theorem witness_EventLog :
    (fget {} stg10.stag 79 : LogQ).q.length < 4095 ∧ stg10.icUp 79 = true ∧ stg10.central.q.length < 4095 ∧ (fw09 (.ic 79) 1).icUp 79 = false ∧
      yes (.eventRecordEnqueue (.isle 79) (ev10 5 79)) stg10 (fun t => (fget {} t.stag 79 : LogQ).q.length == 3) = true ∧
      yes (.eventRecordEnqueue .central (ev10 3 79)) stg10 (fun t => t.central.q.length == 1 && t.seq == 1) = true ∧
      yes (.eventRecordEnqueue .central (ev10 1 86)) stg10 (fun t => t.central.q.length == 1) = true ∧
      base.sideQ.q.length < 255 ∧ yes (.eventRecordEnqueue .sideband (ev10 5 80)) base (fun t => t.sideQ.q == [ev10 5 80]) = true ∧
      base.alarms.length < 1024 ∧ yes (.alarm 5 (ev10 1 80)) base (fun t => (t.reg (rTel 8)).getLsbD 5 && t.alarms.length == 1) = true := by
  decide +kernel
/-- A stage with 4,095 records of the highest class; a queue of 1,024 alarms. -/
def full10 : LogQ := { q := List.replicate 4095 (ev10 1 79) }
theorem witness_EventLog_full : 4095 ≤ full10.q.length ∧ (∀ x ∈ full10.q, 4 < x.cls → 5 ≤ x.cls) ∧
    1024 ≤ ({ base with alarms := List.replicate 1024 { rec_ := ev10 1 80 } } : State).alarms.length := by
  refine ⟨?_, ?_, ?_⟩
  · exact Nat.le_of_eq List.length_replicate.symm
  · intro x h h4
    have h' : x = ev10 1 79 := (List.mem_replicate.1 h).2
    rw [h'] at h4
    exact absurd h4 (by decide)
  · exact Nat.le_of_eq List.length_replicate.symm
/-- The event ring of 8 entries, enabled, with room; an alarm or a record waits. -/
def ring10 : State :=
  { (base.setFld (rTel 4) 15 0 8).setFld (rTel 4) 16 16 1 with
    rings := [(ringKey 0 2 0, { ready := true, unsig := 1 })], central := { q := [ev10 1 82] }, sideQ := { q := [ev10 1 82] } }
def ringA10 : State := { ring10 with alarms := [{ rec_ := ev10 0 83 }] }
theorem witness_EventLog_ring : ring10.evSpace = true ∧ 0 < ring10.fld (rTel 4) 15 0 ∧ ring10.alarms.find? (·.host) = none ∧
    (ringA10.alarms.find? (·.host)).isSome = true ∧ ringA10.evSpace = true ∧ (ringA10.alarms.find? (·.side)).isSome = true ∧
    yes .eventRingWrite ring10 (fun t => t.regN (rTel 5) == 1 && t.central.q == []) = true ∧
    (ring10.ring 0 2 0).unsig ≠ 0 ∧ (ring10.ring 0 2 0).oldest + 1000000 ≤ (atCyc (ring10) 1200000).now ∧
    yes .eventRingSignalTimer (atCyc (ring10) 1200000) (fun t => (t.ring 0 2 0).unsig == 0) = true ∧
    yes .pollForPlatformEventMessage ring10 (fun t => t.sideQ.q == []) = true := by decide +kernel

/-! ## Requests -/

/-- A record of a kind: partition 0, bytes 2 to 7, USER, then bytes 24 on. -/
def sub11 (kind : Nat) (b2 b3 : Nat) (len user : Nat) (more : Bytes) : Bytes :=
  le 1 kind ++ le 1 0 ++ le 1 b2 ++ le 1 b3 ++ le 4 len ++ le 8 0 ++ le 8 user ++ more ++ List.replicate (104 - more.length) 0
def su11 (r : Bytes) : State := { (run0.setRegN (rSch 0x100) 64).setFld (sqReg 0 15 4) 15 0 4 with subq := [(0, 15, r)] }
def plain11 : Bytes := sub11 1 0 0 2 77 (le 4 5)
def spec11 : Bytes := sub11 1 4 8 2 77 (le 4 5 ++ List.replicate 33 0 ++ [1])
def two11 (s : State) : State := (s.setPart 1 part0).setRegN (rSch 0x108) 64
def ok11 (s : State) (fn : Nat) (r : Bytes) : Bool :=
  s.owns fn (recN r 1 1) && decide (recN r 60 1 % 16 < ringsOf fn) && decide (recN r 58 1 % 16 ≤ 8) && decide (recN r 59 1 % 128 ≤ 64) &&
    decide (recN r 4 4 % 2 ^ 19 ≤ 2 ^ 18)
theorem witness_SubmitRecords :
    (su11 plain11).headSub 0 plain11 = some 15 ∧ recN plain11 0 1 = 1 ∧ ok11 (su11 plain11) 0 plain11 = true ∧
      recN plain11 2 1 / 4 % 2 = 0 ∧ (su11 plain11).freeFrom 0 = some 0 ∧ (run0.part 0).liveValid = true ∧ run0.isFollower 0 = false ∧
      run0.classFor 0 7 = none ∧ (su11 plain11).classFor 0 7 = some 0 ∧ (su11 plain11).classFor 0 64 = some 0 ∧ (su11 plain11).classFor 0 65 = none ∧
      yes (.submit 0 15 plain11 (some [1, 2]) (some [])) (su11 plain11) (fun t => (t.req 0).state == 1 && (t.req 0).maxNew == 5) = true ∧
      yes (.submit 0 15 plain11 none none) (su11 plain11) (fun t => t.fld (sqReg 0 15 5) 16 16 == 1) = true ∧
      stops (.submit 0 15 (sub11 1 4 9 2 77 []) none none) (su11 (sub11 1 4 9 2 77 [])) .record = true := by decide +kernel
theorem witness_SubmitRecords_draft :
    let s := two11 (su11 spec11)
    s.headSub 0 spec11 = some 15 ∧ ok11 s 0 spec11 = true ∧ recN spec11 2 1 / 4 % 2 = 1 ∧ recN spec11 3 1 % 16 = 8 ∧ recN spec11 61 1 % 8 = 1 ∧
      s.proxyOf 1 = none ∧ s.freeFrom 1 = some 1 ∧ s.classFor 0 15 = some 0 ∧ s.classFor 1 15 = some 0 ∧
      yes (.submit 0 15 spec11 (some [1, 2]) (some [])) s (fun t => (t.req 0).link == 1 && (t.req 1).draft && (t.req 1).link == 0) = true := by
  decide +kernel
theorem fget_map_const (v d : Req) (i : Nat) : ∀ l : List Nat, i ∈ l → fget d (l.map (fun j => (j, v))) i = v
  | [], h => absurd h (by simp)
  | x :: xs, h => by
    simp only [List.map_cons, fget]
    split
    · rfl
    · rename_i hne
      rcases List.mem_cons.1 h with h | h
      · exact absurd h.symm hne
      · exact fget_map_const v d i xs h
/-- A table whose first `n` entries are in use; of them none is Free. -/
def busy11 (n : Nat) : State := { su11 plain11 with reqs := (List.range n).map (fun j => (j, { state := 2 })) }
theorem none_free (n : Nat) : (List.range n).find? (fun i => decide (0 ≤ i) && ((busy11 n).req i).state == 0) = none := by
  refine List.find?_eq_none.2 (fun i h => ?_)
  have hr : (busy11 n).req i = ({ state := 2 } : Req) := fget_map_const _ _ i _ h
  rw [hr]; simp
theorem witness_SubmitRecords_full : (busy11 8192).freeFrom 0 = none := none_free 8192
/-- A submission ring of 4 entries of the PF: enabled, its index pair read, its consumer index not yet written back. -/
def poll11 : State :=
  { ((base.setFld (sqReg 0 15 4) 15 0 4).setFld (sqReg 0 15 4) 16 16 1).setFld (rHost 0 1) 1 0 1 with rings := [(ringKey 0 0 15, { ready := true })] }
def read11 (ok : Bool) (idx : Nat) : PollRead := { fn := 0, kind := .sq, q := 15, ok := ok, hostIdx := idx, devIdx := 0, recs := List.replicate idx plain11 }
theorem witness_SubmitRecords_poll :
    (∀ x ∈ poll11.rings, x.2.dirty = false) ∧ poll11.polled (read11 true 3) = true ∧ base.polled (read11 true 3) = false ∧
      poll11.fld (ringCtl 0 .sq 15) 15 0 ≤ 4 ∧ (poll11.ring 0 0 15).ready = true ∧ poll11.fld (sqReg 0 15 5) 15 0 < 4 ∧ poll11.subq = [] ∧
      (read11 true 3).recs.length = Nat.min 16 ((3 + 4 - 0) % 4) ∧
      yes (.hostPoll [read11 true 3]) poll11 (fun t => t.subq.length == 3) = true ∧
      yes (.hostPoll [read11 false 0]) poll11 (fun t => t.ringErr 0 .sq 15) = true ∧
      stops (.hostPoll [read11 true 4]) poll11 .record = true ∧
      yes (.hostPoll []) { poll11 with rings := [(ringKey 0 0 15, { ready := true, dirty := true })] } (fun t => t.out.length == 1) = true := by
  decide +kernel
/-- An entry of USER 77 in a state; a record that names it; a partition of one lane. -/
def rq11 (kind : Nat) (x : Req) (s : State) : State := { s with subq := [(0, 15, sub11 kind 0 0 0 77 [])], reqs := [(0, { x with user := 77 })] }
theorem witness_RequestRecords :
    (rq11 2 { state := 2 } run0).headSub 0 (sub11 2 0 0 0 77 []) = some 15 ∧ run0.owns 0 0 = true ∧
      (rq11 2 { state := 2 } run0).named (sub11 2 0 0 0 77 []) = some 0 ∧ (rq11 2 { state := 2 } run0).named (sub11 2 0 0 8191 77 []) = none ∧
      yes (.cancel 0 (sub11 2 0 0 0 77 [])) (rq11 2 { state := 2 } run0) (fun t => (t.req 0).state == 5 && (t.part 0).relQ == [0]) = true ∧
      yes (.park 0 (sub11 3 0 0 0 77 (le 8 64))) { rq11 3 { state := 3 } run0 with subq := [(0, 15, sub11 3 0 0 0 77 (le 8 64))] }
        (fun t => (t.req 0).parking && (t.req 0).parkAddr == 64) = true ∧
      yes (.resume 0 (sub11 4 0 0 0 77 [])) (rq11 4 { state := 4 } run0) (fun t => (t.req 0).resuming) = true ∧
      yes (.drop 0 (sub11 5 0 0 0 77 [])) (rq11 5 { state := 4 } run0) (fun t => t.subq == []) = true := by decide +kernel
def park11 (f : Req → Req) : State := { run0 with reqs := [(8191, f { state := 3, user := 77, parkAddr := 64 })] }
theorem witness_RequestRecords_park :
    let p := park11 (fun x => { x with parking := true })
    let pc := park11 (fun x => { x with parking := true, copying := true })
    let r := park11 (fun x => { x with state := 4, resuming := true, held := [(0, 1)] })
    let rc := park11 (fun x => { x with state := 4, resuming := true, held := [(0, 1)], copying := true })
    let i := park11 (fun x => { x with state := 4 })
    (p.req 8191).parking = true ∧ p.schUp = true ∧ (p.part 0).running 8191 = false ∧ pc.copyWaits 8191 = false ∧
      yes (.parkCopyDone 8191) p (fun t => (t.req 8191).copying && (t.req 8191).state == 3) = true ∧
      yes (.parkCopyDone 8191) pc (fun t => (t.req 8191).state == 4 && (t.part 0).relQ == [8191]) = true ∧
      (upd0 pc (fun k => { k with claims := [{ prio := 5, off := 64, kind := .park 8191 }] })).copyWaits 8191 = true ∧
      (r.req 8191).held ≠ [] ∧ yes (.resumePlaced 8191 none) r (fun t => (t.req 8191).held == []) = true ∧
      yes (.resumePlaced 8191 (some [])) r (fun t => (t.req 8191).copying) = true ∧ rc.copyWaits 8191 = false ∧
      yes (.resumePlaced 8191 none) rc (fun t => (t.req 8191).state == 3) = true ∧ (i.req 8191).tExpire ≤ i.now ∧
      yes (.parkExpiry 8191) i (fun t => t.out.contains (.hostWrite 0 64 (natLe 4 2))) = true ∧ still (.parkExpiry 8191) r = true := by decide +kernel
/-- R346: a `MISS` that names an entry whose `LATE` is set shows it. -/
theorem test_miss_shows_late : yes (.cancel 0 (sub11 2 0 0 0 77 [])) (rq11 2 { state := 6, late := true, silent := true } run0) (fun t =>
    (t.ring 0 1 0).held.map (fun h => (h.2.2.drop 4).take 2) == [[0x0E, 1]]) = true := by decide +kernel

/-! ## Sheets, words, releases, rings -/

/-- A running partition of one lane and one stage with a Decode request in its slot; variant 0 decodes one position. -/
def dec12 : Req := { state := 3, user := 77, held := [(0, 0)], pos := 9, promptLen := 4, maxNew := 100, lastTok := 3, placed := true }
def sh12 (f : Part → Part) : State :=
  { base.setPart 0 (f { part0 with lanes := 1, variants := 1, beat := 4 }) with reqs := [(0, dec12)] }
def shSch (s : State) : State := s.setFld (rSys 0x52) 1 0 1
def shape12 (s : State) : State := (s.setRegN (rSch 0x2000) (2 + 32)).setRegN (rSch 0x100) 128
def follow12 : State :=
  { (sh12 (fun q => { q with fwd := [(5, [line64 0])] })).setRegN (rCwy 0x40) (2 ^ 15) with sync := [(0, 9)] }
theorem witness_SheetAssembly :
    (sh12 id).isFollower 0 = false ∧ (shSch (shape12 (sh12 id))).schUp = false ∧ ((sh12 id).part 0).sheet = none ∧
      (shSch (shape12 (sh12 id))).holder 0 (((sh12 id).part 0).nextBeat % 1) 0 = some 0 ∧
      (shSch (shape12 (sh12 id))).decodeGroup 0 0 0 = some (9, 2, 1) ∧
      (shSch (shape12 (sh12 id))).fits 0 ((shape12 (sh12 id)).fld (rSch 0x150) 2 0) 0 2 1 0 = true ∧
      yes (.sheetAssembly 0) (shSch (shape12 (sh12 id))) (fun t => (t.req 0).pos == 10 && (t.part 0).sheet.isSome) = true ∧
      yes (.sheetAssembly 0) (sh12 (fun q => { q with barrier := true })) (fun t => (t.part 0).sheet.isSome && (t.part 0).groups == []) = true ∧
      follow12.isFollower 0 = true ∧ fget [] (follow12.part 0).fwd (follow12.part 0).nextBeat ≠ [] ∧
      counterGe (fget 0 follow12.sync 0) (follow12.reg64 (rCwy 0x40) / 2 ^ 32 % 16 * 5) = true ∧
      yes (.sheetAssembly 0) follow12 (fun t => (t.part 0).sheet.isSome) = true := by decide +kernel
/-- A word of entry 0, lane 0: flag byte, one token. -/
def word12 (flags : Nat) : Bytes := le 4 7 ++ [1] ++ le 1 flags ++ [1, 0] ++ le 2 0 ++ List.replicate 6 0 ++ le 4 7 ++ List.replicate 44 0
def g12 : Group := { beat := 4, lane := 0, entry := 0, pos0 := 10, n := 1, kind := 2, lastp := false }
def wd12 (flags : Nat) (gs : List Group) : State := sh12 (fun q => { q with words := [(0, word12 flags)], groups := gs })
theorem witness_WordsReleasesAndRings :
    ((wd12 0 [g12]).part 0).words = [(0, word12 0)] ∧ leNat (((word12 0).drop 8).take 2) % 8192 = 0 ∧ (wd12 0 [g12]).schUp = true ∧
      ((wd12 0 [g12]).part 0).groups.find? (fun g => g.entry == 0 && g.lane == 0 && decide (g.beat + Nat.max 1 1 ≤ ((wd12 0 [g12]).part 0).beat + 1)) = some g12 ∧
      wordByte (word12 1) 5 = 1 ∧ wordByte (word12 0) 4 = 1 ∧ ((wd12 0 [g12]).req 0).stops.contains (wordTok (word12 0) 0) = false ∧
      yes (.laneStateWordReceived 0 0 (word12 0)) (wd12 0 [g12]) (fun t => (t.req 0).generated == 1 && (t.req 0).lastTok == 7 && (t.req 0).pos == 11) = true ∧
      yes (.laneStateWordReceived 0 0 (word12 1)) (wd12 1 [g12]) (fun t => (t.req 0).status == 6) = true ∧
      yes (.laneStateWordReceived 0 0 (word12 8)) (wd12 8 [g12]) (fun t => (t.req 0).status == 8) = true ∧
      yes (.laneStateWordReceived 0 0 (word12 16)) (wd12 16 []) (fun t => (t.req 0).status == 7) = true := by decide +kernel
def vo12 : State := { at0 run0 spShelf (sheetOff 31) [0, 1, 1, 0, 5, 0] with net := [nl06 1 3 0 (.vc3 (.void 0 5))] }
def rel12 : State := { sh12 (fun q => { q with relQ := [0], relOut := [(0, 3)] }) with reqs := [(0, { dec12 with state := 5, status := 3 })] }
def dl12 (hard : Bool) : State := { sh12 id with reqs := [(0, { dec12 with dlv := true, hard := hard })] }
theorem witness_WordsReleasesAndRings_rest :
    (nl06 1 3 0 (.vc3 (.void 0 5))).there vo12.cyc = true ∧ vo12.retained 0 = false ∧ names (vo12.sheetEnt 0 31) 5 = true ∧
      yes (.voidMessage 0 5) vo12 (fun t => t.net == [] && (t.core 0).uq.map (fun u => (u.off, u.act)) == [(wordOff 31, .void 5)]) = true ∧
      (rel12.part 0).relOut.find? (fun y => y.1 == 0) = some (0, 3) ∧ 3 + Nat.max 1 1 ≤ (rel12.part 0).beat ∧
      yes (.releaseComplete 0) rel12 (fun t => (t.part 0).relQ == []) = true ∧
      ((dl12 true).req 0).deadline ≤ (dl12 true).now ∧ yes .deadlineCheck (dl12 true) (fun t => (t.req 0).status == 4) = true ∧
      yes .deadlineCheck (dl12 false) (fun t => (t.req 0).status == 5) = true ∧
      yes (.syncCounterAdd 65535 3) { run0 with net := [nl06 1 3 southHarbour (.vc3 (.sync 65535 3))] } (fun t => fget 0 t.sync 65535 == 3 && t.net == []) = true ∧
      still (.syncCounterAdd 65535 3) run0 = true ∧
      yes (.syncCounterWrite .pf 65535 9) run0 (fun t => fget 0 t.sync 65535 == 9) = true ∧
      ((run0.setFld (rHost 0 0x41D) 15 0 5).setFld (rHost 0 0x41E) 16 0 1).fld (rHost 0 0x41E) 16 0 = 1 ∧
      yes (.syncCounterWrite (.vf 8) 5 9) ((run0.setFld (rHost 0 0x41D) 15 0 5).setFld (rHost 0 0x41E) 16 0 1) (fun t => fget 0 t.sync 5 == 9) = true := by
  decide +kernel
/-- A completion ring of 4 entries with room and one held END record. -/
def cq12 : State :=
  { (base.setFld (cqReg 8 1 4) 15 0 4).setFld (cqReg 8 1 4) 16 16 1 with
    rings := [(ringKey 8 1 1, { ready := true, held := [(some 0, true, line64 1)], unsig := 1 })], reqs := [(0, { state := 5 })] }
theorem witness_WordsReleasesAndRings_ring :
    cq12.cqSpace 8 1 = true ∧ (1 : Nat) < ringsOf 8 ∧ 0 < cq12.fld (cqReg 8 1 4) 15 0 ∧ base.cqSpace 8 1 = false ∧
      yes (.completionRecordWrite 8 1) cq12 (fun t => (t.req 0).state == 0 && t.fld (cqReg 8 1 6) 15 0 == 1) = true ∧
      (cq12.ring 8 1 1).unsig ≠ 0 ∧ (cq12.ring 8 1 1).oldest + 1000 * cq12.fld (cqReg 8 1 5) 23 8 ≤ (atCyc cq12 1000000000).now ∧
      yes (.msixModerationTimer 8 1) (atCyc cq12 1000000000) (fun t => t.out == [.msix 8 0]) = true := by decide +kernel

/-! ## The host attachment and registers -/

def vf13 : State := (base.setFld (rHost 0 (0x400 + 4 * 7)) 3 0 8).setPart 0 part0
def ring13 : State := base.setFld (sqReg 0 15 4) 16 16 1
theorem witness_HostAttachment :
    base.blocksOpen = true ∧ base.vfDark (.vf 8) = false ∧ base.fld (sqReg 0 15 4) 16 16 = 0 ∧ ring13.fld (ringCtl 0 .sq 15) 16 16 = 1 ∧
      ring13.ringErr 0 .sq 15 = false ∧ yes (.dmaReadFailure 0 .sq 15) ring13 (fun t => t.ringErr 0 .sq 15) = true ∧
      yes (.ringControlWrite 0 .cq 15 0x10002) base (fun t => t.fld (cqReg 0 15 4) 16 16 == 1 && t.fld (cqReg 0 15 4) 15 0 == 2) = true ∧
      yes (.ringControlWrite 8 .sq 1 0x10001) base (fun t => t.fld (sqReg 8 1 4) 16 16 == 0) = true ∧
      yes (.ringControlWrite 0 .ev 0 0x10008) base (fun t => t.fld (rTel 4) 16 16 == 1) = true ∧
      base.linkUp = true ∧ base.devState = 7 ∧ vf13.b2Addr 8 0 = some (0, 0) ∧ base.b2Addr 8 0 = none ∧ base.b2Addr 0 0 = some (0, 0) ∧
      base.ideOk 0 = true ∧ stops (.bar2Access 0 0 0 none) base .address = true ∧ stops (.bar2Access 0 (0x5800000 - 63) 64 none) base .address = true ∧
      base.isleState (base.physIsle (cIsle 0)) = 2 ∧ base.isleState (base.physIsle (cIsle (2 ^ 14))) ≠ 2 ∧ base.protected_ 0 0 64 = false ∧
      m01.protected_ 0 1999999 1 = true ∧ m01.protected_ 0 1999936 65 = true ∧ stops (.bar2Access 0 1999968 4 (some [1])) m01 .contract = true ∧
      yes (.bar2Access 0 (0x5800000 - 64) 64 none) base (fun t => (t.core 0).claims.length == 1) = true ∧
      yes (.bar2Access 8 0 64 none) base (fun t => t.out.length == 1 && t.fld (rHost 8 5) 30 24 == 1) = true := by decide +kernel
theorem witness_HostAttachment_debug :
    base.hears .pf = true ∧ base.dbgReach 0 0 = true ∧ run0.dbgReach 0 0 = false ∧
      stops (.dbgWindowAccess none) (base.setReg64 (rDbg 0x10) (5 * 2 ^ 44)) .address = true ∧
      base.coreOk (waCore (base.reg64 (rDbg 0x10))) = true ∧ waSpace (base.reg64 (rDbg 0x10)) < 5 ∧
      yes (.dbgWindowAccess (some 7)) base (fun t => (t.core 0).uq.length == 1) = true ∧
      yes (.dbgWindowAccess none) run0 (fun t => (t.reg (rDbg 0)).getLsbD 2) = true := by decide +kernel
def map13 : State := base.setFld (rSys 1) 3 0 6
/-- A write over three lines is three claims; the debug window of a register space, and of a shelf at retention. -/
theorem test_bar2_lines : yes (.bar2Access 0 32 100 (some (List.replicate 100 1))) base (fun t =>
    (t.core 0).claims.map (fun c => (c.off, match c.kind with | .write d => d.length | _ => 0)) == [(32, 32), (64, 64), (128, 4)]) = true := by
  decide +kernel
theorem witness_HostAttachment_window : waSpace ((base.setReg64 (rDbg 0x10) (8 * 2 ^ 44)).reg64 (rDbg 0x10)) = 8 ∧
    base.dbgReach 0 8 = false ∧ (base.setFld (rPwr 0x200) 2 0 3).retained 0 = true ∧ (base.setFld (rPwr 0x200) 2 0 3).dbgReach 0 spShelf = true ∧
    yes (.dbgWindowAccess none) (base.setFld (rPwr 0x200) 2 0 3) (fun t => t.fld (t.sreg 0 0x892) 31 24 == 1 && t.out.length == 1) = true ∧
    yes (.dbgWindowAccess none) (base.setReg64 (rDbg 0x10) (8 * 2 ^ 44)) (fun t => t.out == [.answer .pf (List.replicate 4 0xFF)]) = true := by decide +kernel
theorem witness_HostAttachment_function :
    map13.devState = 6 ∧ map13.fld (rHost 0 1) 1 0 ≠ 2 ∧ map13.regN (rHost 0 2) ≤ map13.regN (rHost 0 3) ∧ base.regN (rHost 0 3) < 2 ^ 32 - 1 ∧
      yes (.hostDrvVerWrite 0 (map13.reg (rHost 0 2))) map13 (fun t => t.devState == 7) = true ∧
      yes (.hostDrvVerWrite 0 0xFFFFFFFF) map13 (fun t => t.devState == 6 && t.regN (rHost 0 1) == 2) = true ∧
      yes (.hostDrvVerWrite 8 0xFFFFFFFF) base (fun t => t.regN (rHost 8 1) == 2) = true ∧
      vf13.vfPart 8 = some 0 ∧ ({ base with tx := [(0, { owner := some (.vf 8) })] } : State).txSlot 0 = { owner := some (.vf 8) } ∧
      yes (.vfFlr 8) { base with tx := [(0, { owner := some (.vf 8) })] } (fun t => (t.txSlot 0).status == 7) = true ∧
      (∀ e : Nat, e < 8 → (base.req e).func ≤ 8) ∧ flrReg 0 (rHost 0 0) = true ∧ flrReg 8 (rHost 8 0) = true ∧
      yes .pfFlr base (fun t => t.devState == 6) = true ∧ yes .linkDown base (fun t => !t.linkUp) = true ∧
      yes (.d3hotEntry 8) base (fun t => t.inD3 8) = true ∧ yes (.d0Return 8) { base with d3 := [8] } (fun t => !t.inD3 8) = true ∧
      off10.devState = 0 ∧ (State.reset.setFld (rSys 1) 3 0 1).devState = 1 ∧
      yes .linkTrained (atCyc (State.reset.setFld (rSys 1) 3 0 1) 60000000) (fun t => t.linkUp) = true ∧
      yes .linkTrained (atCyc (State.reset.setFld (rSys 1) 3 0 1) 59999999) (fun t => !t.linkUp) = true := by decide +kernel
theorem witness_RegisterAccesses :
    stops (.registerWrite .pf 1 0) base .address = true ∧ stops (.reg64LowRead .pf 2) base .address = true ∧
      stops (.reg64LowWrite .pf 3 0) base .address = true ∧ stops (.reg64HighWrite .pf 5 0) base .address = true ∧ base.hears (.vf 1) = true ∧
      off10.hears .bmc = false ∧ base.target .pf (4 * sqReg 0 15 0) = .reg (sqReg 0 15 0) ∧ isLow (sqReg 0 15 0) = true ∧
      base.shows (.reg (sqReg 0 15 0)) = true ∧ base.takes .pf (sqReg 0 15 0) = true ∧ base.takes (.vf 1) (rSys 0) = true ∧
      base.target .pf (4 * (sqReg 0 15 0 + 1)) = .reg (sqReg 0 15 0 + 1) ∧
      yes (.reg64LowWrite .pf (4 * sqReg 0 15 0) 0xABCDE123) base (fun t => fget 0 t.heldLo (ownKey .pf (sqReg 0 15 0)) == 0xABCDE124) = true ∧
      yes (.reg64HighWrite .pf (4 * (sqReg 0 15 0 + 1)) 5) { base with heldLo := [(ownKey .pf (sqReg 0 15 0), 0xABCDE124)] } (fun t =>
        t.regN (sqReg 0 15 0) == 0xABCDE000 && t.regN (sqReg 0 15 0 + 1) == 5) = true ∧
      stops (.cimColStatRead .pf 80) base .address = true ∧ base.isMapped = true := by decide +kernel
/-- Table 0-2: a bit that an event of this cycle has set stays set under a write of the same cycle. R12: Failed takes firmware and log writes only. -/
theorem test_event_wins : yes (.registerWrite .pf (4 * rSys 0x54) 0xFFFFFFFF) ((base.setRegN (rSys 0x54) 4).orReg (rSys 0x54) 3)
    (fun t => t.regN (rSys 0x54) == 3) = true ∧ (base.setFld (rSys 1) 3 0 9).takes .pf (rPwr 0) = false ∧
    (base.setFld (rSys 1) 3 0 9).takes .pf (rTel 4) = true ∧ (base.setFld (rSys 1) 3 0 10).takes .pf (rSys 2) = true := by decide +kernel
theorem witness_RegisterAccesses_rest :
    yes (.cimColStatRead .pf 79) base (fun t => t.out.length == 1) = true ∧
      base.target .pf (4 * rSys 0x54) = .reg (rSys 0x54) ∧ isLow (rSys 0x54) = false ∧ isLow (rSys 0x54 - 1) = false ∧
      base.takes .pf (rSys 0x54) = true ∧ base.target .pf (4 * rHost 0 6) = .reg (rHost 0 6) ∧ base.takes .pf (rHost 0 6) = true ∧
      base.target .pf (4 * rSys 0) = .reg (rSys 0) ∧ base.takes .pf (rSys 0) = true ∧ base.target .pf (4 * rSec 0x20) = .reg (rSec 0x20) ∧
      base.takes .pf (rSec 0x20) = true ∧ isLow (rSec 0x20) = false ∧ isLow (rSec 0x20 - 1) = false ∧
      base.target .pf (4 * rIsle 79 0x801) = .reg (rIsle 79 0x801) ∧ base.takes .pf (rIsle 79 0x801) = true ∧
      base.target .pf (4 * 0x2FFFFF) = .nowhere ∧
      yes (.registerWrite .pf (4 * rSys 0x54) 0xFFFFFFFF) (base.setRegN (rSys 0x54) 0x1F) (fun t => t.regN (rSys 0x54) == 0) = true ∧
      yes (.registerWrite .pf (4 * rHost 0 6) 0x1FF) base (fun t => t.regN (rHost 0 6) == 0xFF) = true ∧
      still (.registerWrite .pf (4 * rSec 0x20) 2) base = true := by decide +kernel

/-! ## Power -/

def pw14 (f : Pwr → Pwr) : State := { base with pw := f base.pw }
def crk14 (n : Nat) : State := pw14 (fun p => { p with crack := [((79 * 8 + 4) * 32 + 1, n)] })
theorem witness_PowerEvents :
    base.bricks = 18 ∧ (State.reset).coldStart = true ∧ (State.reset).devState < 6 ∧ yes .brickFailed base (fun t => t.bricks == 17) = true ∧
      yes .brickFailed ((State.reset.setFld (rSys 1) 3 0 3).setFld (rPwr 1) 19 15 16) (fun t => t.devState == 9 && t.fld (rSys 1) 31 16 == 5) = true ∧
      1 < railPhases 4 ∧ (base.reg (rIsle 79 (0x8D0 + 4))).getLsbD 1 = false ∧ base.phasesOut 79 4 + 1 ≠ railSpare 4 + 1 ∧
      (base.setRegN (rIsle 79 0x8D4) 1).phasesOut 79 4 + 1 = railSpare 4 + 1 ∧
      yes (.phaseRetired 79 4 1) (base.setRegN (rIsle 79 0x8D4) 1) (fun t => t.isleState 79 == 4 && t.pw.vsOff == [79]) = true ∧
      base.fld (rIsle 79 0x8D4) 28 28 = 0 ∧ yes (.senseLost 79 4) base (fun t => t.fld (rIsle 79 0x8D4) 28 28 == 1) = true ∧
      base.isleState 0 ≠ 4 ∧ base.isleState 0 ≠ 5 ∧ base.pw.vsOff.contains 79 = false ∧
      yes (.railOvervoltage 0 0) base (fun t => t.isleState 0 == 5) = true ∧ base.pwcUp = true ∧ (fw09 .pwc 1).pwcUp = false ∧
      yes (.isolated 0 false) run0 (fun t => (t.part 0).halted) = true := by decide +kernel
theorem witness_PowerEvents_crack : fget 0 (crk14 9).pw.crack ((79 * 8 + 4) * 32 + 1) = 9 ∧
    yes (.crackCheck [{ isle := 79, rail := 4, phase := 1, meas := 31, pred := 20 }]) (crk14 9) (fun t => (t.reg (rIsle 79 0x8D4)).getLsbD 1) = true ∧
    yes (.crackCheck [{ isle := 79, rail := 4, phase := 1, meas := 31, pred := 20 }]) (crk14 8)
      (fun t => fget 0 t.pw.crack ((79 * 8 + 4) * 32 + 1) == 9) = true ∧
    yes (.crackCheck [{ isle := 79, rail := 4, phase := 1, meas := 30, pred := 20 }]) (crk14 8)
      (fun t => fget 0 t.pw.crack ((79 * 8 + 4) * 32 + 1) == 0) = true := by decide +kernel
theorem witness_PowerEvents_limits :
    base.pw.hw = [] ∧ yes (.curLimit (.isle 79)) base (fun t => t.pw.hw == [79]) = true ∧ yes (.curLimit (.group 7)) base (fun t => t.pw.hw == [107]) = true ∧
      yes (.curLimitRelease (.group 7) 539) (pw14 (fun p => { p with hw := [107] })) (fun t => t.pw.hw == []) = true ∧
      yes (.curLimitRelease (.isle 79) 100) (pw14 (fun p => { p with hw := [79] })) (fun t => t.pw.hw == [79]) = true ∧
      yes (.inputSample 30001) base (fun t => t.pw.hw.contains 200) = true ∧
      yes (.inputSample 24999) (pw14 (fun p => { p with hw := [200] })) (fun t => t.pw.hw == []) = true ∧
      base.blocksOpen = true ∧ base.fld (rPwr 0) 14 0 = 25000 ∧ yes (.powerLimitWrite 30000) base (fun t => t.fld (rPwr 0) 14 0 == 25000) = true ∧
      yes (.powerLimitWrite 101) (base.setFld (rPwr 0) 14 0 100) (fun t => (t.reg (rPwr 4)).getLsbD 3 && t.fld (rPwr 0) 14 0 == 100) = true := by
  decide +kernel
def wait14 (i st t0 : Nat) : State := { base.setFld (rPwr (0x200 + i)) 2 0 st with pw := { wait := [(i, t0 + 1)], unpark := [i] } }
theorem witness_PowerEvents_park :
    base.fld (rPwr 0x300) 0 0 = 0 ∧ base.isleFree 0 = true ∧ run0.isleFree 0 = false ∧ base.isleState 0 = 2 ∧
      yes (.parkRequest 0 true) base (fun t => t.isleState 0 == 3) = true ∧ yes (.parkRequest 0 true) run0 (fun t => t.fld (rPwr 0x300) 1 1 == 1) = true ∧
      (base.setFld (rPwr 0x200) 2 0 3).fld (rThm 0x100) 14 14 = 0 ∧
      yes (.parkRequest 0 false) (base.setFld (rPwr 0x200) 2 0 3) (fun t => t.pw.unpark == [0]) = true ∧
      ((wait14 79 6 0).pw.wait.map Prod.fst).find? (fun i => i / 10 == 79 / 10) = some 79 ∧ (wait14 79 6 0).groupRoom 79 = true ∧
      yes (.isleSwitchOn 79) (wait14 79 6 0) (fun t => t.isleState 79 == 1) = true ∧
      (wait14 79 1 0).icUp 79 = true ∧ base.devState ≠ 10 ∧
      yes (.unparkComplete ⟨79, []⟩) (wait14 79 1 0) (fun t => t.isleState 79 == 2) = true ∧
      fget 0 (wait14 79 6 0).pw.wait 79 = 0 + 1 ∧ 0 + 5000000 < (atCyc (wait14 79 6 0) 6000012).now ∧
      yes (.groupWait 79) (atCyc (wait14 79 6 0) 6000012) (fun t => t.pw.longWait == [79]) = true := by decide +kernel
/-- A throughput partition 0 and a latency partition 7, with duties. -/
def pc14 (a b : Nat) : State :=
  (((base.setPart 0 { part0 with mode := 1 }).setPart 7 { part0 with originCol := 1 }).setFld (rPwr 0x20) 9 5 a).setFld (rPwr 0x27) 9 5 b
theorem witness_PowerControl :
    (∀ p, p < 8 → ∀ i ∈ (pc14 0 0).partPhys p, (pc14 0 0).fld (rPwr (0x200 + i)) 12 3 ≤ (pc14 0 0).effBudget i) ∧
      (∀ i, i < 80 → (pc14 0 0).fld (rPwr (0x200 + i)) 12 3 ≤ (pc14 0 0).effBudget i) ∧ (pc14 0 0).pw.longWait = [] ∧
      (pc14 15 1).pduty 0 = 15 ∧ (pc14 16 1).pduty 7 = 1 ∧
      yes (.powerControlPeriod 24751 0 []) (pc14 15 1) (fun t => t.pduty 0 == 16 && t.pduty 7 == 1) = true ∧
      yes (.powerControlPeriod 24751 0 []) (pc14 16 1) (fun t => t.pduty 0 == 16 && t.pduty 7 == 2) = true ∧
      yes (.powerControlPeriod 23999 0 []) (pc14 16 1) (fun t => t.pduty 0 == 16 && t.pduty 7 == 0) = true ∧
      yes (.powerControlPeriod 23999 0 []) (pc14 16 0) (fun t => t.pduty 0 == 15) = true := by decide +kernel
/-- R65: an isle that leaves parking sweeps its arrays: array 1, with column 5 at 9 of 64 from its level, has a margin of 23. -/
theorem test_unpark_sweeps : yes (.unparkComplete ⟨0, [{ isle := 0, site := 0, arr := 1, levels := [{ col := 5, level := 3, pos := 3 * 64 + 9 }] }]⟩)
    { wait14 0 1 0 with arrs := [(1, { state := 0, logical := 0 })] } (fun t => (t.arr 1).swept && (fget {} (t.arr 1).cols 5 : Col).margin == 23) = true := by
  decide +kernel

/-! ## Start, clocks, resets -/

def st15 (n : Nat) : State := State.reset.setFld (rSys 1) 3 0 n
def warm15 (n : Nat) : State := (st15 n).setFld (rSys 3) 2 0 2
def sl15 (sig full : Bool) (v : Nat) : SlotFacts := { sigOk := sig, version := v, fullOk := full, digest := [], ifMin := 1, ifMax := 2 }
def root15 (a b : SlotFacts) (dev puf procs : Bool) : RootFacts :=
  { slotA := a, slotB := b, floorOk := true, floor := 3, deviceOk := dev, grade := 0x40, ident := 7, deviceDigest := [], chain := [], owner := .erased
    pufOk := puf, procsOk := procs, stored := [], logBad := 0, logFreeKiB := 0, spareCols := [], setMv := [], sensorSpare := [], romDigest := []
    nonce := 5#64 }
theorem witness_StartAndResets_reset :
    off10.devState = 0 ∧ (base.mapped = true) ∧ (st15 3).mapped = false ∧ base.fwu = none ∧
      bits 0xA501 15 8 = 0xA5 ∧ bits 0xA501 1 0 = 1 ∧ bits 0xA502 1 0 = 2 ∧
      yes (.sysResetCold .pf 0xA502) base (fun t => t.devState == 1 && t.fld (rSys 3) 2 0 == 1) = true ∧
      yes .perstAssertion (st15 5) (fun t => t.devState == 5) = true ∧
      yes .inputPowerApplied off10 (fun t => t.devState == 1) = true ∧ yes .inputPowerLoss base (fun t => t.devState == 0) = true := by decide +kernel
theorem witness_StartAndResets_hot : ((st15 10).setRegN (rIsle 0 0x8F0) 0x350).isCool = false := by decide +kernel
theorem witness_StartAndResets_cool : (st15 10).isCool = true := by decide +kernel
theorem witness_StartAndResets_root :
    (warm15 2).coldStart = false ∧ (st15 2).coldStart = true ∧
      16 ≤ (st15 2).bricks ∧ ((st15 2).setFld (rPwr 1) 19 15 15).bricks < 16 ∧
      yes (.rootComplete (root15 (sl15 true true 9) (sl15 true true 9) true true true)) (warm15 2) (fun t => t.devState == 3) = true ∧
      yes (.rootComplete (root15 (sl15 true false 9) (sl15 true true 2) true true true)) (st15 2) (fun t => t.fld (rSys 1) 31 16 == 1) = true ∧
      yes (.rootComplete (root15 (sl15 true true 9) (sl15 true true 3) false true true)) (st15 2) (fun t => t.fld (rSys 1) 31 16 == 2) = true ∧
      yes (.rootComplete (root15 (sl15 true true 9) (sl15 true true 3) true false true)) (st15 2) (fun t => t.fld (rSys 1) 31 16 == 3) = true ∧
      yes (.rootComplete (root15 (sl15 true true 9) (sl15 true true 3) true true false)) (st15 2) (fun t => t.fld (rSys 1) 31 16 == 4) = true ∧
      yes (.rootComplete (root15 (sl15 false true 9) (sl15 false true 9) true true true)) (st15 2) (fun t => t.fld (rSys 1) 31 16 == 1) = true := by
  decide +kernel
def on15 (n : Nat) : State := { st15 n with regs := (st15 n).regs ++ (List.range 80).map (fun i => (rPwr (0x200 + i), 2#32)) }
theorem witness_StartAndResets_power :
    (st15 3).pwcUp = true ∧ (st15 3).isleState 0 = 0 ∧ 0 ∉ (st15 3).isleFail ∧ (st15 3).groupAmps 0 ≤ 540 ∧ (st15 3).pw.wait = [] ∧
      yes (.islePowerUp .ok) (st15 3) (fun t => t.isleState 0 == 2) = true ∧ yes (.islePowerUp .short) (st15 3) (fun t => t.isleState 0 == 5) = true ∧
      (∀ i, i < 80 → i ∈ (on15 3).isleFail ∨ (on15 3).isleState i = 2) ∧ yes .poweringComplete (on15 3) (fun t => t.devState == 4) = true := by
  decide +kernel
theorem witness_StartAndResets_map :
    (∀ i, i < 80 → (on15 4).absorbable i = true) ∧
      (∀ row, row < 8 → (on15 4).gridCols ≤ ((List.range 10).filter (fun k => !(on15 4).isleFail.contains (row * 10 + k))).length) ∧
      (on15 4).knownDefect { kind := 7, cause := 1, isle := 79, site := 0, element := 35 } = false ∧
      ((List.range 10).filter (fun k => !([70, 71] : List Nat).contains (7 * 10 + k))).length < (on15 4).gridCols ∧
      (st15 5).schUp = true ∧ yes .mappedComplete (st15 5) (fun t => t.devState == 6) = true ∧
      yes .stateLimitExceeded (atCyc (st15 5) (1200000 * 2001)) (fun t => t.devState == 9 && t.fld (rSys 1) 7 4 == 5) = true := by decide +kernel
theorem witness_StartAndResets_locks :
    yes (.pllLockLoss (.isle 79)) run0 (fun t => t.isleFail == [79]) = true ∧ yes (.pllLockLoss (.isle 0)) run0 (fun t => (t.part 0).halted) = true ∧
      yes (.pllLockLoss .west) base (fun t => !t.linkUp && t.devState == 6) = true ∧
      yes (.pllLockLoss .east) base (fun t => t.fld (rSys 4) 3 3 == 0) = true ∧
      yes (.pllLockLoss .north) base (fun t => t.devState == 9 && t.fld (rSys 1) 31 16 == 8) = true := by decide +kernel
/-- R70: the Testing sweep finds column 5 of array 1 at a margin of 3: the column is mapped to the array's first spare. -/
theorem witness_StartAndResets_sweep : levelMargin { col := 5, level := 3, pos := 3 * 64 + 29 } = 3 ∧ ((on15 4).arr 1).fill = none ∧
    yes (.testingComplete ⟨[], [{ isle := 0, site := 0, arr := 1, levels := [{ col := 5, level := 3, pos := 3 * 64 + 29 }] }]⟩) (on15 4) (fun t =>
      t.devState == 5 && fget 0 (t.arr 1).spareMap 5 == 1) = true := by decide +kernel
/-- R3: a start that fails after its image has been verified shows its grade. R13: a loss of lock in Shutdown leaves it there. -/
theorem test_failed_start_shows_grade : yes (.rootComplete (root15 (sl15 true true 9) (sl15 true true 3) true false true)) (st15 2)
    (fun t => t.devState == 9 && t.fld (rSys 0) 15 8 == 0x40 && t.gridCols == 8) = true ∧
    yes (.pllLockLoss .north) (base.setFld (rSys 1) 3 0 10) (fun t => t.devState == 10) = true := by decide +kernel

/-! ## Heat -/

def isle79 (s : State) (st : Nat) : State := s.setRegN (rPwr (0x200 + 79)) st
/-- Isle 79 with its sensors as after a cold start: 32 in service, 4 spares. -/
def heat16 (h : Heat) : State := { isle79 base 2 with heat := [(79, h)] }
theorem witness_ThermalControl :
    base.pw.vsOff.contains 79 = false ∧ (List.replicate 36 (840 : Int)).length = 36 ∧ (∀ n, n < 32 → base.senState 79 n = 0) ∧
      (∀ n, n < 36 → 32 ≤ n → base.senState 79 n = 2) ∧ (base.heatOf 79).hist = [] ∧ (base.heatOf 79).unmapped = [] ∧ (base.heatOf 79).hot = [] := by
  decide +kernel
def hot16 (x : Int) : List Int := List.replicate 31 700 ++ [x] ++ List.replicate 4 700
theorem test_throttle : yes (.sensorSample 79 (hot16 840)) (heat16 {}) (fun t =>
    t.fld (rThm (0x100 + 79)) 13 13 == 1 && t.fld (rThm (0x100 + 79)) 19 15 == 4 && t.fld (rThm (0x100 + 79)) 11 0 == 840) = true := by decide +kernel
theorem test_broken_sensor : yes (.sensorSample 79 (hot16 1201)) (heat16 {}) (fun t => t.senState 79 31 == 1) = true := by decide +kernel
theorem witness_ThermalControl_spare :
    (heat16 { spareOf := [(31, 36)] }).icUp 79 = true ∧ fget 0 ((heat16 { spareOf := [(31, 36)] }).heatOf 79).spareOf 31 = 35 + 1 ∧
      (fw09 (.ic 79) 1).icUp 79 = false ∧ (heat16 { hot := [31] }).inService 79 31 = true ∧ ((heat16 { hot := [31] }).heatOf 79).hot = [31] ∧
      base.senState 79 31 ≠ 1 ∧
      yes (.sensorSelfCheck 79 [31]) (heat16 {}) (fun t => t.senState 79 31 == 1) = true ∧
      fget 0 ((heat16 { mapping := [(35, 32)] }).heatOf 79).mapping 35 = 31 + 1 ∧
      yes (.sensorSpareMapped 79 35 1200) (heat16 { mapping := [(35, 32)] }) (fun t => t.senState 79 35 == 3 && t.senMapped 79 35 == 31) = true := by
  decide +kernel
theorem witness_ThermalControl_shutdown : ({ st15 10 with pw := { heldReset := some 3 } } : State).pw.heldReset = some 3 ∧
    (st15 10).devState = 10 ∧ (st15 10).pw.heldReset = none ∧ codeTemp ((st15 10).fld (rSensor 0 0) 11 0) < 680 := by decide +kernel
def fc16 (p : Nat) : State := (isle79 base 2).setFld (rThm (0x100 + 79)) 23 20 p
def hp16 (h : Heat) (st park : Nat) (temp : Nat) : State := ((atCyc (heat16 h) 12000000000).setRegN (rPwr (0x200 + 79)) st).setRegN (rThm (0x100 + 79)) (temp + park * 2 ^ 14)
theorem witness_ThermalControl_duties :
    (fc16 12).pwcUp = true ∧ (fc16 12).isleState 79 = 2 ∧ (fc16 12).fld (rThm (0x100 + 79)) 23 20 = 12 ∧
      min (codeTemp ((fc16 12).fld (rThm 8) 19 8)) 832 ≤ 2047 ∧
      yes (.thermalForecast [(79, 832)]) (fc16 11) (fun t => t.fld (rThm (0x100 + 79)) 23 20 == 12) = true ∧
      yes (.thermalForecast [(79, -2048)]) (fc16 1) (fun t => t.fld (rThm (0x100 + 79)) 23 20 == 0) = true ∧
      0 + 50000000 ≤ (hp16 { fullAt := some 0 } 2 0 808).now ∧ codeTemp ((hp16 { fullAt := some 0 } 2 0 808).fld (rThm (0x100 + 79)) 11 0) = 808 ∧
      yes (.heatPark 79) (hp16 { fullAt := some 0 } 2 0 808) (fun t => t.isleState 79 == 3) = true ∧
      0 + 100000000 ≤ (hp16 { coolAt := some 0 } 3 1 0).now ∧
      yes (.heatUnpark 79) (hp16 { coolAt := some 0 } 3 1 0) (fun t => t.fld (rThm (0x100 + 79)) 14 14 == 0 && t.pw.unpark == [79]) = true ∧
      yes (.coolantSample 119 200 500 true) base (fun t => t.pw.coolBad == some 0 && t.fld (rThm 4) 9 0 == 119) = true ∧
      yes (.coolantSample 120 200 399 true) { atCyc base 1200000000 with pw := { coolBad := some 0 } } (fun t => (t.reg (rThm 0x10)).getLsbD 5) = true := by
  decide +kernel

/-! ## Failures and repair -/

/-- A core of partition 0 fails at site 1 of isle 0; a recovery of it in a step. -/
def fail17 (auto : Nat) (f : State → State) : State :=
  f (({ run0.setFld (rSys 0x40) 0 0 auto with siteFail := [] } : State).setPart 0 { part0 with groups := [g12] })
def rec17 (step : Nat) (lost : Bool) (moved : List (CoreId × Nat × Nat)) : State :=
  { (run0.setPart 0 { part0 with recovery := some { isle := 0, site := 1, step := step, lost := lost, moved := moved }, halted := true }) with
    siteFail := [(1, 5)] }
theorem witness_FailuresAndRepair_site :
    (fail17 1 id).coreAt 0 1 = some 1 ∧ (fail17 1 id).partOf 1 = some 0 ∧ (fail17 1 id).isleFail.contains 0 = false ∧
      fget 0 (fail17 1 id).siteFail 1 = 0 ∧ ({ fail17 1 id with siteFail := [(1, 5)] } : State).absorbable 0 = true ∧
      ({ run0 with siteFail := [(0, 1), (1, 1), (13, 1), (14, 1)] } : State).absorbable 0 = false ∧
      (fail17 1 id).coreAt 0 168 = none ∧ base.partOf 1 = none ∧ base.logicalIsle 0 = some 0 := by decide +kernel
theorem test_core_failed : yes (.coreFailed 0 1 5) (fail17 1 id) (fun t =>
    (t.part 0).recovery == some { isle := 0, site := 1, step := 2, lost := true } && (t.part 0).halted) = true := by decide +kernel
theorem witness_FailuresAndRepair_steps :
    (rec17 2 true []).icUp 0 = true ∧ (rec17 2 true []).schUp = true ∧ (rec17 2 true []).logicalIsle 0 = some 0 ∧
      yes (.recoveryPlanned 0) (rec17 2 false []) (fun t => (t.part 0).recovery.map (·.step) == some 3) = true ∧
      ([(1, 1, 2)] : List (CoreId × Nat × Nat)).map Prod.fst = [1] ∧
      yes (.recoveryCopyDone 0) (rec17 3 false [(1, 1, 2)]) (fun t => t.siteOf 1 == 2 && (t.part 0).recovery.map (·.step) == some 4) = true ∧
      yes (.recoveryReprogrammed 0 none) (rec17 4 false []) (fun t => (t.part 0).recovery == none) = true ∧
      (rec17 4 false []).dma 0 (some ([] : Bytes)) = some [] ∧
      yes (.recoveryRewriteDone 0) (rec17 5 false []) (fun t => (t.part 0).recovery == none && (t.part 0).started && !(t.part 0).halted) = true := by
  decide +kernel
/-- The recovery of `rec17` at its last step while a swap of partition 0 waits at a step, a first load or not; the other slot holds an
uncorrectable line of array 0 of core 1, in use in the staged version, or none. -/
def swap17 (step : Nat) (first bad : Bool) : State :=
  ((rec17 5 false [(1, 1, 2)]).updPart 0 (fun q => { q with other := 2, tag := 1, otag := 9, dir := [(1, { afmtStaged := 1 })]
                                                            wop := some { op := 2, step := step, first := first } })).updCore 1
    (fun k => { k with bad := if bad then [lineId spCabinet 0] else [] })
theorem witness_FailuresAndRepair_waiting :
    ((swap17 4 false true).part 0).sourceSlot ≠ ((swap17 4 false true).part 0).liveSlot ∧
      (swap17 4 false true).slotBad 1 1 ((swap17 4 false true).afmtOfSlot 1 1) = true ∧
      yes (.recoveryRewriteDone 0) (swap17 4 false true) (fun t => (t.part 0).other == 0 && (t.part 0).recovery == none) = true ∧
      (swap17 4 false false).slotBad 1 1 ((swap17 4 false false).afmtOfSlot 1 1) = false ∧
      yes (.recoveryRewriteDone 0) (swap17 4 false false) (fun t => (t.part 0).wop == some { op := 2, step := 4 } && (t.part 0).halted) = true := by
  decide +kernel
theorem witness_FailuresAndRepair_moves : ([(1, 1, 2)] : List (CoreId × Nat × Nat)) = [(1, 1, 2)] ∧
    ∃ m ∈ (rec17 2 true []).coreMoves 0, fget 0 (rec17 2 true []).siteFail (0 * 169 + m.2.1) = 5 := by decide +kernel
/-- A failed isle of partition 0, waiting; the spare of its row, isle 9, is sound and on or has failed. -/
def due17 (fail : List Nat) : State := { run0.setRegN (rPwr (0x200 + 9)) 2 with isleDue := [0], isleFail := fail }
theorem witness_FailuresAndRepair_isle :
    (due17 [0]).partOfPhys 0 = some 0 ∧ base.partOfPhys 0 = none ∧ (due17 [0]).schUp = true ∧ (due17 [0, 9]).findSpare 0 = none ∧
      (due17 [0]).findSpare 0 = some 9 ∧ ((due17 [0]).setFld (rSys 0x40) 1 1 0).fld (rSys 0x40) 1 1 = 0 ∧
      ((due17 [0]).setFld (rSys 0x40) 1 1 1).fld (rSys 0x40) 1 1 = 1 ∧ (due17 [0]).isleState 9 = 2 := by decide +kernel
theorem test_isle_without_spare : yes (.isleFailed 0 none) (due17 [0, 9]) (fun t => (t.part 0).halted && t.fld (rSys 0x41) 3 0 == 4) = true := by
  decide +kernel
/-- A weight image of one isle without data: its directory reads as zeros. -/
def wim17 (tag : Nat) (dig : Bytes) : Bytes :=
  le 4 0x31574C51 ++ le 2 1 ++ le 1 0 ++ [0] ++ [1, 1, 0, 0] ++ le 4 tag ++ le 8 256 ++ le 8 256 ++ List.replicate 64 0 ++ dig ++ List.replicate 128 0
def dig17 : Bytes := [56, 114, 58, 46, 94, 138, 23, 170, 121, 80, 220, 0, 130, 9, 148, 78, 137, 143, 105, 167, 189, 16, 162, 60, 131, 157, 52, 30, 147,
  95, 213, 202]
def live17 : State := run0.setPart 0 { part0 with tag := 9, digest := List.replicate 32 0 }
theorem witness_FailuresAndRepair_image : live17.liveImage 0 (wim17 9 dig17) = true := by decide +kernel
theorem witness_FailuresAndRepair_commands :
    live17.isleDue = [] ∧ live17.resup = none ∧ (∀ p, p < 8 → (live17.part p).recovery = none) ∧ live17.devState = 7 ∧
      live17.coreAt 0 154 = some 187 ∧ live17.partOf 187 = some 0 ∧ (live17.part 0).busy = false ∧ live17.liveImage 0 (wim17 8 dig17) = false ∧
      wimgTag (wim17 8 dig17) ≠ (live17.part 0).tag ∧
      ({ live17 with siteCand := [79 * 169 + 168] } : State).siteCand = [79 * 169 + 168] ∧
      yes (.coreRepair 79 168) { live17 with siteCand := [79 * 169 + 168] } (fun t => fget 0 t.siteFail (79 * 169 + 168) == 7) = true ∧
      yes (.coreRepair 80 0) live17 (fun t => t.fld (rSys 0x41) 3 0 == 6) = true ∧
      yes (.coreRepair 0 5) (rec17 0 false []) (fun t => (t.part 0).recovery.map (·.step) == some 2) = true ∧
      live17.partOfPhys 79 = none ∧ yes (.isleRetirement 79 none) live17 (fun t => t.isleFail == [79]) = true ∧
      (rec17 3 true []).dma 0 (some ([] : Bytes)) = some [] ∧ (rec17 3 true []).liveImage 0 [] = false ∧
      wimgTag (wim17 8 dig17) ≠ ((rec17 3 true []).part 0).tag := by decide +kernel
theorem witness_FailuresAndRepair_log :
    ({ live17 with resup := some 187 } : State).resup = some 187 ∧ live17.writesWait 187 = false ∧
      yes (.resupplyDone 0 154) { live17 with resup := some 187 } (fun t => t.resup == none && t.fld (rSys 0x41) 3 0 == 2) = true ∧
      live17.secUp = true ∧ 2 < live17.devState ∧
      yes .repairLogAppend { live17 with repairQ := [({ kind := 1, cause := 1, isle := 0, site := 0, element := 0 }, 0)], repRoom := 524288 }
        (fun t => t.repairQ == [] && t.repRecs.length == 1 && t.repRoom == 524287) = true ∧
      yes .repairLogAppend { live17 with repairQ := [({ kind := 1, cause := 1, isle := 0, site := 0, element := 0 }, 0)], repRoom := 0 }
        (fun t => t.fld (rSys 5) 2 2 == 1) = true := by decide +kernel

/-! ## The causeway -/

/-- Port 15 is up with four lanes; the device has number 9 and identity 50. -/
def fab18 (f : Fabric → Fabric) : State :=
  { ((base.setRegN (rPort 15) 4).setFld (rCwy 0) 12 12 1).setFld (rCwy 0) 11 0 9 with fabric := f { ident := 50, lowest := 50 } }
def hello18 (num : Option Nat) (ident lowest dist : Nat) : HelloMsg := { ident := ident, port := 0, num := num, lowest := lowest, dist := dist }
def asg18 (f : Fabric → Fabric) : State := (fab18 f).setFld (rCwy 0) 13 13 1
def noNum18 (f : Fabric → Fabric) : State := (fab18 f).setFld (rCwy 0) 12 12 0
theorem witness_FabricLinks_hello :
    (fab18 id).width 15 = 4 ∧ (fab18 id).width 0 = 0 ∧ (fab18 id).nodeNum = some 9 ∧ (∀ k, k < 16 → k ≠ 15 → ((fab18 id).port k).nbr = none) ∧
      ((fab18 id).port 15).txq = [] ∧ ((fab18 id).port 15).replay = [] ∧ ((fab18 id).port 15).units.getD 3 0 = 384 ∧
      yes (.hello 15 (hello18 (some 9) 7 50 0)) (fab18 id) (fun t => t.nodeNum == none) = true ∧
      yes (.hello 15 (hello18 (some 9) 60 60 62)) (fab18 id) (fun t => t.nodeNum == some 9 && t.fabric.parent == none) = true ∧
      yes (.hello 15 (hello18 none 7 7 62)) (fab18 id) (fun t => t.fabric.lowest == 7 && t.fabric.dist == 63 && t.fabric.parent == some 15) = true ∧
      (noNum18 (fun f => { f with selfAdv := 2 })).nodeNum = none ∧ (noNum18 id).isAssigner = false ∧
      ((fab18 (fun f => { f with ports := [(15, { nbr := some (hello18 none 7 7 0) })] })).port 15).nbr.isSome = true ∧
      0 + 300000 ≤ (atCyc base 360000).now := by decide +kernel
theorem witness_FabricLinks_number :
    (asg18 id).isAssigner = true ∧ (fab18 id).isAssigner = false ∧
      yes (.numberRequest 15 60 4095) (asg18 id) (fun t => t.fabric.nums == [{ num := 4095, ident := 60 }]) = true ∧
      yes (.numberRequest 15 60 0) (asg18 (fun f => { f with nums := [{ num := 0, ident := 50 }] }))
        (fun t => t.fabric.nums.contains { num := 1, ident := 60 }) = true ∧
      yes (.numberRequest 15 60 0) (fab18 id) (fun t => fget 0 t.fabric.back 60 == 16) = true ∧
      yes (.numberGrant 51 none) (fab18 (fun f => { f with back := [(51, 16)] })) (fun t => fget 0 t.fabric.back 51 == 0) = true ∧
      yes (.numberHoldExpiry 3) (atCyc (asg18 (fun f => { f with nums := [{ num := 3, ident := 1, gone := some 0 }] })) 12000000000)
        (fun t => t.fabric.nums == []) = true := by decide +kernel
/-- A table of the assigner in which every number is held by another identity. -/
theorem witness_FabricLinks_full : ∀ j, j < 4096 → ∃ r ∈ (List.range 4096).map (fun i => ({ num := i, ident := 1 } : NumRec)), r.num = j ∧ r.ident ≠ 60 :=
  fun j h => ⟨{ num := j, ident := 1 }, List.mem_map.2 ⟨j, List.mem_range.2 h, rfl⟩, rfl, (by decide : (1 : Nat) ≠ 60)⟩
def up18 (w7 fails : Nat) (p : Port) : State := (fab18 (fun f => { f with ports := [(15, p)] })).setRegN (rPort 15) (4 + 8 * fails + 128 * w7)
theorem witness_FabricLinks_lanes :
    (up18 1 0 {}).fld (rPort 15) 7 7 = 1 ∧ (up18 0 0 {}).width 15 ≠ 0 ∧
      yes (.laneFailure 15 8) (up18 0 1 {}) (fun t => t.fld (rPort 15) 6 3 == 9 && t.width 15 == 0) = true ∧
      yes (.laneFailure 15 8) (up18 1 1 {}) (fun t => t.fld (rPort 15) 6 3 == 9) = true ∧
      (up18 1 3 {}).fld (rPort 15) 6 3 = 3 ∧
      (up18 1 6 {}).fld (rPort 15) 6 3 = 6 := by decide +kernel
def pk18 (kind dest lseq : Nat) : Packet :=
  { fvc := 1, kind := kind, hops := 0, lseq := lseq, lack := 0, ackv := false, nak := false, dest := dest * 2 ^ 48, src := 4, flow := 0, eseq := 0
    credit := [], kd := [], payload := [] }
def crc18 (p : Packet) : Word := BitVec.ofNat 32 (crcBytes (packetHeader p))
def route18 : State := fab18 (fun f => { f with vecs := [(15 * 4096 + 4095, 1)] })
theorem witness_FabricLinks_packets :
    yes (.linkNak 15 0) (up18 0 0 { replay := [pk18 8 9 1], tries := 15 }) (fun t => t.width 15 == 0) = true ∧
      yes (.linkNak 15 0) (up18 0 0 { replay := [pk18 8 9 0, pk18 8 9 1] }) (fun t => t.out == [.packet 15 (pk18 8 9 1)]) = true ∧
      yes (.packetReceive 15 (pk18 8 9 0) (crc18 (pk18 8 9 0)) []) (fab18 id) (fun t => t.fabric.inbox == [pk18 8 9 0]) = true ∧
      (fget {} (fab18 id).fabric.rxs (4 * 4 + 1) : RxStream).next = 0 ∧ devOf (pk18 8 9 0).dest = 9 ∧
      yes (.packetReceive 15 (pk18 8 9 0) (~~~(crc18 (pk18 8 9 0))) []) (fab18 id) (fun t => t.out.length == 1) = true ∧
      yes (.packetReceive 15 { pk18 8 8 0 with hops := 62 } (crc18 { pk18 8 8 0 with hops := 62 }) []) (fab18 id)
        (fun t => t.fld (rCwy 0x20) 15 0 == 1) = true ∧
      route18.routeOf (pk18 8 4095 0) = some 15 ∧ route18.metricVia 15 4095 = some 1 ∧
      packetSize (pk18 8 4095 0) ≤ ((route18.setRegN (rPort 0) 4).port 15).units.getD 1 0 ∧
      yes (.packetReceive 0 (pk18 8 4095 0) (crc18 (pk18 8 4095 0)) []) (route18.setRegN (rPort 0) 4)
        (fun t => t.out.any (fun o => match o with | .packet 15 p => p.hops == 1 | _ => false)) = true := by decide +kernel
theorem witness_FabricLinks_vector : (List.replicate 1024 (0 : Byte)).length = 1024 := List.length_replicate
def str18 (p : Packet) (tries : Nat) : State :=
  atCyc (fab18 (fun f => { f with streams := [(4095 * 4 + p.fvc, { next := 1, sent := [{ pkt := p, at_ := 0, tries := tries }] })]
                                  gates := [(63, { busy := true, left := 2 })], mig := some (8191, 4095) })) 2400000
theorem witness_FabricLinks_streams :
    let d : Packet := { pk18 5 4095 0 with fvc := 0, flow := 63 }
    let c : Packet := { pk18 6 4095 0 with flow := 0x803F }
    let m : Packet := { pk18 0x0B 4095 0 with fvc := 2 }
    (fget {} (str18 d 7).fabric.streams (4095 * 4) : Stream).sent.find? (fun y => y.pkt.eseq == 0) = some { pkt := d, at_ := 0, tries := 7 } ∧
      0 + 2000000 ≤ (str18 d 7).now ∧ ((str18 d 7).gate 63).busy = true ∧ 1 < ((str18 d 7).gate 63).left ∧
      yes (.endToEndAcknowledgement 4095 0 0) (str18 d 0) (fun t => (t.gate 63).left == 1) = true ∧
      yes (.endToEndAcknowledgement 4095 1 0) (str18 c 0) (fun t => (t.gate 63).fires == 1 && !(t.gate 63).busy) = true ∧
      yes (.e2eRetransmit 4095 0 0) (str18 d 7) (fun t => t.fld (rCwy 0x20) 31 16 == 1) = true ∧
      yes (.e2eRetransmit 4095 2 0) (str18 m 8) (fun t => t.fabric.mig == none && t.regN (rCwy 0x71) == 8) = true ∧
      yes (.refusal 4095 0 63) (str18 d 0) (fun t => t.fld (rGate 63 6) 26 24 == 3) = true ∧
      yes (.refusal 4095 1 0x803F) (str18 d 0) (fun t => t.fld (rGate 63 6) 26 24 == 3) = true ∧
      yes (.refusal 4095 2 7) (str18 d 0) (fun t => t.regN (rCwy 0x71) == 7) = true ∧
      yes (.transitCreditTimeout 15) (atCyc (up18 0 0 { txq := [(pk18 8 9 0, 0)], units := [0, 0, 0, 0] }) 1200012)
        (fun t => (t.port 15).txq == []) = true ∧
      (up18 0 0 { txq := [(pk18 8 9 0, 0)], units := [0, 0, 0, 0] }).now ≤ 0 + 1000000 ∧
      0 + 1000000 < (atCyc base 1200012).now ∧ (pk18 8 4095 0).fvc < 4 := by
  decide +kernel
/-- Port 15 with a packet of FV1 and one of FV0 waiting, and the units each channel has sent. -/
def share18 (spent : List Nat) : State :=
  up18 0 0 { txq := [(pk18 8 9 0, 0), ({ pk18 5 9 0 with fvc := 0 }, 0), (pk18 2 9 0, 0)].take (if spent = [] then 3 else 2), spent := spent }
theorem witness_PortsShareByWeight :
    (share18 []).nextOut 15 = some (pk18 2 9 0, 0) ∧ (share18 [4, 1, 0, 0]).nextOut 15 = some (pk18 8 9 0, 0) ∧
      (share18 [4, 2, 0, 0]).nextOut 15 = some ({ pk18 5 9 0 with fvc := 0 }, 0) := by decide +kernel

/-! ## What the causeway carries -/

/-- Partition 0 admits device 4 and the counters 0 to 9; packets of device 4 have arrived. -/
def in19 (ps : List Packet) : State :=
  { (((run0.setFld (rCwy 0) 12 12 1).setFld (rCwy 0) 11 0 9).setRegN (rCwy 0x30) (4 + 4 * 4096 + 2 ^ 24)).setRegN (rCwy 0x31) (10 * 65536) with
    fabric := { inbox := ps } }
def shut19 (s : State) : State := s.setRegN (rCwy 0x30) 0
def dat19 (off lines : Nat) : Packet := { pk18 5 9 0 with fvc := 0, dest := 9 * 2 ^ 48 + wa 1 0 off, payload := List.replicate lines (line64 6) }
def add19 (p ctr n : Nat) : Packet := { pk18 6 9 0 with kd := le 1 p ++ le 2 ctr ++ le 4 n }
theorem witness_FabricTraffic_data :
    (in19 [dat19 0 1]).admits 0 4 = true ∧ (shut19 (in19 [dat19 0 1])).admits 0 4 = false ∧ (in19 []).nodeNum = some 9 ∧
      (in19 [dat19 0 1]).partOf (waCore ((dat19 0 1).dest % 2 ^ 48)) = some 0 ∧ (in19 []).coreOk 0 = true ∧
      (in19 []).protected_ 0 (0x5800000 - 64) 64 = false ∧
      yes (.dataWrite (dat19 (0x5800000 - 64) 1)) (in19 [dat19 (0x5800000 - 64) 1]) (fun t => (t.core 0).claims.length == 1) = true ∧
      stops (.dataWrite (dat19 (0x5800000 - 64) 2)) (in19 [dat19 (0x5800000 - 64) 2]) .address = true ∧
      yes (.dataWrite (dat19 0 1)) (shut19 (in19 [dat19 0 1])) (fun t => t.fld (rCwy 0x21) 15 0 == 1) = true ∧
      (in19 []).countPart (add19 0 9 3) = 0 ∧ (in19 []).countWaits 0 = false ∧ (in19 []).admitsCtr 0 9 = true ∧ (in19 []).admitsCtr 0 10 = false ∧
      yes (.counterAdd (add19 0 9 3)) (in19 [add19 0 9 3]) (fun t => fget 0 t.sync 9 == 3) = true ∧
      yes (.counterAdd (add19 0 10 3)) (in19 [add19 0 10 3]) (fun t => t.fld (rCwy 0x21) 15 0 == 1) = true := by decide +kernel
/-- Gate 63 armed with one slot, a length in lines, partition 0, destination device 4; its trigger counter has counted once. -/
def gate19 (len : Nat) : State :=
  { (((in19 []).setRegN (rGate 63 4) (len + 2 ^ 13 + 2 ^ 20)).setReg64 (rGate 63 0) (2 ^ 44)).setReg64 (rGate 63 2) (4 * 2 ^ 48) with sync := [(0, 1)] }
theorem witness_FabricTraffic_gate :
    bits ((gate19 17).regN (rGate 63 4)) 20 20 = 1 ∧ bits ((gate19 17).regN (rGate 63 4)) 16 13 = 1 ∧ ((gate19 17).gate 63).busy = false ∧
      counterGe (fget 0 (gate19 17).sync ((gate19 17).fld (rGate 63 5) 15 0)) (0 + 1) = true ∧ devOf ((gate19 17).reg64 (rGate 63 2)) = 4 ∧
      ((gate19 17).part 0).covers (gate19 17).gridCols (cIsle (waCore ((gate19 17).reloc ((gate19 17).part 0) (2 ^ 44)))) = true ∧
      waSpace ((gate19 17).reloc ((gate19 17).part 0) (2 ^ 44)) = spCabinet ∧ devOf ((4 * 2 ^ 48 + 1024 * 1) % 2 ^ 60) = 4 ∧
      yes (.gateFire 63) (gate19 0) (fun t => (t.gate 63).busy && (t.gate 63).adding) = true ∧
      stops (.gateFire 63) ((gate19 17).setPart 0 {}) .address = true := by decide +kernel
theorem test_gate_fires : yes (.gateFire 63) (gate19 17) (fun t => (t.gate 63).left == 2 && t.fld (rGate 63 6) 26 24 == 2) = true := by decide +kernel
def msg19 (kind : Nat) (kd bytes : Bytes) : Packet := { pk18 kind 9 0 with kd := kd, payload := linesOf bytes }
def ent19 : Packet := msg19 8 (le 1 0 ++ le 8 5) ((line64 1) ++ (line64 2))
theorem witness_FabricTraffic_forward :
    (in19 [ent19]).message 4 8 (le 1 0 ++ le 8 5) ([line64 1, line64 2] : List Bytes).flatten = some [ent19] ∧ ((in19 []).part 0).lanes = 2 ∧
      yes (.forwardedLaneEntries 4 0 5 [line64 1, line64 2]) (in19 [ent19]) (fun t => fget [] (t.part 0).fwd 5 == [line64 1, line64 2]) = true ∧
      yes (.forwardedLaneEntries 4 0 5 [line64 1, line64 2]) (shut19 (in19 [ent19])) (fun t => t.fld (rCwy 0x21) 15 0 == 1) = true ∧
      yes (.forwardedLaneStateWord 4 0 31 (line64 3)) (in19 [msg19 9 (le 1 0 ++ le 1 31) (line64 3)]) (fun t => (t.part 0).words == [(31, line64 3)]) = true ∧
      (in19 [msg19 10 (le 1 0 ++ le 2 8191) []]).fabric.inbox.any (fun k => k.src == 4 && k.kind == 10 && k.kd == natLe 1 0 ++ natLe 2 8191) = true ∧
      (atCyc (follow12.updPart 0 (fun q => { q with started := true })) 120000000).isFollower 0 = true ∧
      0 + 100000000 ≤ (atCyc follow12 120000000).now ∧
      yes (.followerEntryTimeout 0) (atCyc follow12 120000000) (fun t => (t.part 0).fwdAt == 100000000) = true := by decide +kernel
theorem test_forwarded_void : yes (.forwardedVoid 4 0 8191) (in19 [msg19 10 (le 1 0 ++ le 2 8191) []]) (fun t => t.net.any (fun l => l.vc == 3 && l.msg == .vc3 (.void 0 8191))) = true := by decide +kernel
def create19 : ProxyMsg := .create 0 [1, 2] [] (plain11 ++ le 2 3 ++ le 2 1 ++ List.replicate 34 0)
def prox19 (m : ProxyMsg) (rs : FMap Req) : State :=
  { (in19 [{ msg19 0x0C [] [] with payload := linesOf (proxyBytes m) }]).setRegN (rSch 0x100) 64 with reqs := rs }
def tgt19 : Req := { state := 3, spec := true, proxy := some 4 }
def dr19 : Req := { state := 3, draft := true, proxy := some 4, link := 3, pos := 20, produced := 4 }
theorem witness_FabricTraffic_proxy :
    ((prox19 create19 []).message 4 0x0C [] (linesOf (proxyBytes create19)).flatten).isSome = true ∧
      ((prox19 create19 []).draftReq 4 0 [1, 2] [] (plain11 ++ le 2 3 ++ le 2 1 ++ List.replicate 34 0)).isSome = true ∧
      (prox19 create19 []).freeFrom 0 = some 0 ∧
      ((prox19 create19 []).setRegN (rSch 0x100) 0).draftReq 4 0 [1, 2] [] (plain11 ++ le 2 3 ++ le 2 1 ++ List.replicate 34 0) = none ∧
      yes (.proxyMessage 4 create19) (prox19 create19 []) (fun t => (t.req 0).draft && (t.req 0).link == 3) = true ∧
      yes (.proxyMessage 4 (.draftToken 8191 5)) (prox19 (.draftToken 8191 5) [(8191, tgt19)]) (fun t => (t.req 8191).drafts == [5]) = true ∧
      (prox19 (.roundResult 3 2 9) [(8191, dr19)]).remoteDraft 4 3 = some 8191 ∧
      yes (.proxyMessage 4 (.roundResult 3 2 9)) (prox19 (.roundResult 3 2 9) [(8191, dr19)]) (fun t => (t.req 8191).pos == 18) = true ∧
      yes (.proxyMessage 4 (.roundResult 3 0 9)) (prox19 (.roundResult 3 0 9) [(8191, dr19)]) (fun t => (t.req 8191).status == 3) = true := by decide +kernel
def park19 (mig : Option (Nat × Nat)) : State := { in19 [] with fabric := { mig := mig }, reqs := [(8191, { state := 4 })] }
theorem witness_FabricTraffic_migration :
    (park19 none).schUp = true ∧ (park19 none).migSent 4095 = false ∧ ((park19 none).req 8191).state = 4 ∧ (park19 none).nodeNum = some 9 ∧
      (park19 none).dma 0 (some (le 4 1)) = some (le 4 1) ∧ recN (le 4 1) 0 4 = 1 ∧ recN (le 4 2) 0 4 ≠ 1 ∧
      (fget {} (park19 none).fabric.streams (4095 * 4 + 2) : Stream).sent = [] ∧
      yes (.migrationGo 8191 4095 none) (park19 none) (fun t => t.regN (rCwy 0x71) == 9) = true ∧
      yes (.migrationGo 8191 4095 (some (le 4 2))) (park19 (some (8191, 4095))) (fun t => t.regN (rCwy 0x71) == 3) = true ∧
      yes (.migrationGo 8190 4095 none) (park19 none) (fun t => t.regN (rCwy 0x71) == 3) = true := by decide +kernel
/-- A package of 832 bytes from device 4; one landing slot of 1 KiB is enabled for partition 0. -/
def pkg19 (magic len : Nat) : Bytes := le 4 magic ++ List.replicate 44 0 ++ le 8 len ++ List.replicate 776 0
def land19 (pk : Bytes) (cfg : Nat) : State :=
  ((in19 [{ msg19 0x0B [] [] with payload := linesOf pk }]).setPart 0 { part0 with digest := List.replicate 32 0 }).setRegN (rCwy 0x74) cfg
theorem witness_FabricTraffic_landing :
    ((land19 (pkg19 0x314D4C51 832) (1 + 2 ^ 15 + 65536)).message 4 0x0B [] (pkg19 0x314D4C51 832)).isSome = true ∧
      (pkg19 0x314D4C51 832).length = 832 ∧ recN (pkg19 0x314D4C51 832) 48 8 = 832 ∧
      (land19 (pkg19 0x314D4C51 832) (1 + 2 ^ 15 + 65536)).landSlot = some 0 ∧ (land19 (pkg19 0x314D4C51 832) 1).landSlot = none ∧
      ((land19 (pkg19 0x314D4C51 832) 0).part 0).digest = ((pkg19 0x314D4C51 832).drop 16).take 32 ∧
      stops (.migration 4 (pkg19 0 832)) (land19 (pkg19 0 832) (1 + 2 ^ 15 + 65536)) .record = true ∧
      stops (.migration 4 (pkg19 0x314D4C51 832)) (land19 (pkg19 0x314D4C51 832) (1 + 2 ^ 15)) .contract = true ∧
      yes (.migration 4 (pkg19 0x314D4C51 832)) (land19 (pkg19 0x314D4C51 832) 1) (fun t => t.fld (rCwy 0x21) 15 0 == 1) = true ∧
      yes (.migration 4 (pkg19 0x314D4C51 832)) (land19 (pkg19 0x314D4C51 832) (1 + 2 ^ 15 + 65536)) (fun t => (t.req 0).state == 4) = true := by
  decide +kernel

/-! ## The block: step, reset, encodings -/

theorem witness_StepRunsTheFrontCommand : (match step { base with pending := [.hwDutyTick 0, .brickFailed] } with
    | .next t => t.pending == [.brickFailed]
    | _ => false) = true := by decide +kernel
/-- Partition 0 runs, partition 7 does not; the second half of a cycle is next, or the first. -/
def idle20 (second : Bool) : State :=
  { run0.setPart 7 { part0 with run := false, originCol := 1 } with phase := second }
theorem witness_IdleStepsMakeOneCycle : base.pending = [] ∧ base.devState ≠ 0 ∧ off10.devState = 0 ∧ (run0.part 0).rootRuns = true ∧
    ((idle20 true).part 7).rootRuns = false ∧ base.beatCores = [] ∧ (idle20 false).phase = false ∧ (idle20 true).phase = true ∧
    (match step (base : State) with
     | .next t => t.cyc == 1 && t.phase && t.fresh == []
     | _ => false) = true := by decide +kernel
theorem witness_IdleStepsMakeOneCycle_cores : run0.coreRuns (run0.part 0) 0 = true ∧ (run0.beatCores.map Prod.snd).contains 0 = true ∧
    ((run0.beatCores.filter (fun x => run0.coreRuns x.1 x.2)).map Prod.snd).Nodup ∧ (run0.core 0).live = false := by decide +kernel
theorem witness_StepKeepsMemoryCanonical : Memory.wf v03.mem = true ∧ v03.mem ≠ [] ∧
    (match step { v03 with pending := [.vecSt 0 ⟨.none, false⟩ 2 255 1 []] } with
     | .next t => Memory.wf t.mem
     | _ => false) = true := by decide +kernel
theorem test_reset_values : State.reset.devState = 1 ∧ State.reset.fld (rPwr 1) 19 15 = 18 ∧ State.reset.fld (rThm 8) 19 8 = 0x338 ∧
    State.reset.senState 79 35 = 2 ∧ State.reset.pending = [] ∧ Memory.wf State.reset.mem = true := by decide +kernel
theorem witness_HardwareThermalDuty :
    yes (.hwDutyTick 79) ((base.setFld (rThm (0x100 + 79)) 19 15 15).setFld (rThm (0x100 + 79)) 13 13 1 |>.setFld (rThm (0x100 + 79)) 11 0 840)
      (fun t => t.fld (rThm (0x100 + 79)) 19 15 == 16 && (t.heatOf 79).fullAt == some 0) = true ∧
    yes (.hwDutyTick 79) (base.setFld (rThm (0x100 + 79)) 19 15 16) (fun t => t.fld (rThm (0x100 + 79)) 19 15 == 15) = true ∧
    yes (.hwDutyTick 79) (base.setFld (rThm (0x100 + 79)) 13 13 1 |>.setFld (rThm (0x100 + 79)) 11 0 839)
      (fun t => t.fld (rThm (0x100 + 79)) 19 15 == 0) = true ∧ base.fld (rThm (0x100 + 79)) 19 15 ≤ 16 := by decide +kernel

/-! ### Encodings: the slot values of the worked example of R240 -/

theorem test_word_pre : decodeSlot 0 .cim 0x743282 = some (some (.cimPre 0 ⟨.read, false⟩ 1 3 2 7 0 [])) := by decide +kernel
theorem test_word_mvm : decodeSlot 0 .cim 0x040431010281 = some (some (.cimMvm 0 ⟨.read, false⟩ 1 0 2 0 2 3 false 1 0x40 ⟨[], []⟩)) := by decide +kernel
theorem test_word_out : decodeSlot 0 .cim 0x843243 = some (some (.cimOut 0 ⟨.none, true⟩ 1 3 0 true 0x10 0 [] [])) := by decide +kernel
theorem test_bundle : decodeBundle 0 (15 + 0x743282 * 2 ^ 48) = some (15, [.cimPre 0 ⟨.read, false⟩ 1 3 2 7 0 []]) := by decide +kernel
theorem witness_ScoreSlotsRoundTrip : (Instr.xfrDflush 0 31).wf = true ∧ (encodeSlot (.xfrDflush 0 31)).isSome = true ∧
    encodeSlot (.cimPre 0 ⟨.read, false⟩ 1 3 2 7 0 []) = some (.cim, 0x743282) := by decide +kernel
theorem test_no_table_word : decodeTableWord 32 5 = none := rfl

/-! ### Ill-formed instructions, one for each check of WellFormed -/

def nt : Ta := ⟨.none, false⟩
def fillTa : Ta := ⟨.none, true⟩
def srcTa : Ta := ⟨.read, false⟩
def allIll (l : List Instr) : Bool := l.all (fun i => !i.wf)
theorem test_ill_control : allIll [.ctlPld 0 fillTa 1 1 0 [], .ctlPld 0 nt 32 1 0 [], .ctlPld 0 nt 1 32 0 [], .ctlPld 0 nt 1 1 4096 [],
    .ctlPld 0 nt 1 1 1 [], .ctlPadd 0 32 0, .ctlPadd 0 1 (-131073), .ctlPadd 0 1 131072, .ctlLoop 0 4 1 1, .ctlLoop 0 0 2048 1, .ctlLoop 0 0 1 1024,
    .ctlJump 0 32768, .ctlFlead 0 2 0, .ctlFlead 0 0 65536, .ctlLane 0 5 0 0 false, .ctlLane 0 0 32 0 false, .ctlLane 0 0 0 16384 false] = true := by
  decide +kernel
theorem test_ill_cim : allIll [.cimMvm 0 fillTa 0 0 1 0 1 0 false 1 0 ⟨[], []⟩, .cimMvm 0 nt 6 0 1 0 1 0 false 1 0 ⟨[], []⟩, .cimMvm 0 nt 0 8 0 0 1 0 false 1 0 ⟨[], []⟩,
    .cimMvm 0 nt 0 7 2 0 1 0 false 1 0 ⟨[], []⟩, .cimMvm 0 nt 0 0 1 16 0 0 false 1 0 ⟨[], []⟩, .cimMvm 0 nt 0 0 1 1 16 0 false 1 0 ⟨[], []⟩,
    .cimMvm 0 nt 0 0 1 0 17 0 false 1 0 ⟨[], []⟩, .cimMvm 0 nt 0 0 1 0 1 32 false 1 0 ⟨[], []⟩, .cimMvm 0 nt 0 0 1 0 1 0 false 3 0 ⟨[], []⟩,
    .cimMvm 0 nt 0 0 1 0 1 31 false 0 0 ⟨[], []⟩, .cimMvm 0 nt 0 0 1 0 1 0 true 1 0 ⟨[], []⟩, .cimMvm 0 nt 0 0 1 0 1 0 false 1 256 ⟨[], []⟩,
    .cimMvm 0 nt 0 0 1 0 1 0 false 1 255 ⟨[], []⟩, .cimPre 0 fillTa 0 0 0 0 0 [], .cimPre 0 nt 6 0 0 0 0 [], .cimPre 0 nt 0 32 0 0 0 [],
    .cimPre 0 nt 0 0 5 0 0 [], .cimPre 0 nt 0 0 0 32 0 [], .cimPre 0 nt 0 0 0 0 32 [], .cimOut 0 srcTa 0 0 0 false 0 0 [] [],
    .cimOut 0 nt 6 0 0 false 0 0 [] [], .cimOut 0 nt 0 32 0 false 0 0 [] [], .cimOut 0 nt 0 0 2 false 0 0 [] [], .cimOut 0 nt 0 0 0 false 256 0 [] [],
    .cimOut 0 nt 0 0 0 false 0 32 [] [], .cimCal 0 64 0 [], .cimCal 0 0 256 []] = true := by decide +kernel
theorem test_ill_attention : allIll [.attPass 0 ⟨nt, []⟩ 32 0 0 1 1 1 0 false false, .attPass 0 ⟨nt, []⟩ 0 8 0 1 1 1 0 false false,
    .attPass 0 ⟨nt, []⟩ 0 0 16 0 1 1 0 false false, .attPass 0 ⟨nt, []⟩ 0 0 15 2 1 1 0 false false, .attPass 0 ⟨nt, []⟩ 0 0 0 1 32 1 0 false false,
    .attPass 0 ⟨nt, []⟩ 0 0 0 1 1 32 0 false false, .attPass 0 ⟨nt, []⟩ 0 0 0 1 1 1 1024 false false, .attMerge 0 ⟨nt, []⟩ 32 0 0 1 false false 0,
    .attMerge 0 ⟨nt, []⟩ 0 32 0 1 false false 0, .attMerge 0 ⟨nt, []⟩ 0 0 32 1 false false 0, .attMerge 0 ⟨nt, []⟩ 0 0 0 65 false false 0,
    .attMerge 0 ⟨nt, []⟩ 0 0 0 1 false false 32, .attGemv 0 ⟨nt, []⟩ 32 0 1 0 1 0 0 false false, .attGemv 0 ⟨nt, []⟩ 0 3 1 0 1 0 0 false false,
    .attGemv 0 ⟨nt, []⟩ 0 0 9 0 1 0 0 false false, .attGemv 0 ⟨nt, []⟩ 0 0 1 16 1 0 0 false false, .attGemv 0 ⟨nt, []⟩ 0 0 1 0 17 0 0 false false,
    .attGemv 0 ⟨nt, []⟩ 0 0 1 0 1 1024 0 false false, .attGemv 0 ⟨nt, []⟩ 0 0 1 0 1 0 32 false false] = true := by decide +kernel
theorem test_ill_vector : allIll [.vecLd 0 nt 32 0 1 [] [], .vecLd 0 nt 0 256 1 [] [], .vecLd 0 nt 0 0 256 [] [], .vecSt 0 nt 32 0 1 [],
    .vecSt 0 nt 0 256 1 [], .vecSt 0 nt 0 0 256 [], .vecAlu 0 ⟨nt, []⟩ 9 0 0 0 0 0 1 false, .vecAlu 0 ⟨nt, []⟩ 0 2 0 0 0 0 1 false,
    .vecAlu 0 ⟨nt, []⟩ 0 0 256 0 0 0 1 false, .vecAlu 0 ⟨nt, []⟩ 0 0 0 256 0 0 1 false, .vecAlu 0 ⟨nt, []⟩ 0 0 0 0 256 0 1 false, .vecAlu 0 ⟨nt, []⟩ 0 0 0 0 0 256 1 false,
    .vecAlu 0 ⟨nt, []⟩ 0 0 0 0 0 0 256 false, .vecTr 0 ⟨nt, []⟩ 6 0 0 0 1, .vecTr 0 ⟨nt, []⟩ 0 256 0 0 1, .vecTr 0 ⟨nt, []⟩ 0 0 256 0 1, .vecTr 0 ⟨nt, []⟩ 0 0 0 256 1,
    .vecTr 0 ⟨nt, []⟩ 0 0 0 0 256, .vecXl 0 ⟨nt, []⟩ 2 0 0 1 0 0, .vecXl 0 ⟨nt, []⟩ 0 2 0 1 0 0, .vecXl 0 ⟨nt, []⟩ 0 0 256 1 0 0, .vecXl 0 ⟨nt, []⟩ 0 0 0 256 0 0,
    .vecXl 0 ⟨nt, []⟩ 0 0 0 1 256 0, .vecXl 0 ⟨nt, []⟩ 0 0 0 1 0 16] = true := by decide +kernel
theorem test_ill_quantiser : allIll [.vecQnt 0 ⟨nt, []⟩ 5 0 0 1 0 0 0 0 0 1 0 false, .vecQnt 0 ⟨nt, []⟩ 2 2 0 1 0 0 0 0 0 1 0 false,
    .vecQnt 0 ⟨nt, []⟩ 2 0 2 1 0 0 0 0 0 1 0 false, .vecQnt 0 ⟨nt, []⟩ 2 0 0 256 0 0 0 0 0 1 0 false, .vecQnt 0 ⟨nt, []⟩ 2 0 0 1 3 0 0 0 0 1 0 false,
    .vecQnt 0 ⟨nt, []⟩ 2 0 0 1 0 32 0 0 0 1 0 false, .vecQnt 0 ⟨nt, []⟩ 2 0 0 1 0 0 64 0 0 1 0 false, .vecQnt 0 ⟨nt, []⟩ 2 0 0 1 0 0 0 256 0 1 0 false,
    .vecQnt 0 ⟨nt, []⟩ 2 0 0 1 0 0 0 0 32 1 0 false, .vecQnt 0 ⟨nt, []⟩ 2 0 0 1 0 0 0 0 0 9 0 false, .vecQnt 0 ⟨nt, []⟩ 2 0 0 1 0 0 0 0 0 0 64 false,
    .vecQnt 0 ⟨nt, []⟩ 2 0 0 1 0 0 0 0 0 2 63 false, .vecQnt 0 ⟨nt, []⟩ 2 0 1 0 0 0 0 0 0 1 0 false, .vecQnt 0 ⟨nt, []⟩ 2 0 1 255 0 0 0 0 0 1 0 false,
    .vecQnt 0 ⟨nt, []⟩ 6 0 1 1 0 0 0 0 0 1 0 false, .vecQnt 0 ⟨nt, []⟩ 7 0 0 1 1 0 0 0 0 1 0 false, .vecRope 0 ⟨nt, []⟩ 256 0 0 0 0 0, .vecRope 0 ⟨nt, []⟩ 0 256 0 0 0 0,
    .vecRope 0 ⟨nt, []⟩ 0 0 253 1 0 0, .vecRope 0 ⟨nt, []⟩ 0 0 0 33 0 0, .vecRope 0 ⟨nt, []⟩ 0 0 0 1 32 0, .vecRope 0 ⟨nt, []⟩ 0 0 0 1 0 16, .vecRope 0 ⟨nt, []⟩ 249 0 0 1 0 0,
    .vecRope 0 ⟨nt, []⟩ 0 249 0 1 0 0, .scan 0 ⟨nt, []⟩ 32 0 0 0 1, .scan 0 ⟨nt, []⟩ 0 256 0 0 1, .scan 0 ⟨nt, []⟩ 0 0 256 0 1, .scan 0 ⟨nt, []⟩ 0 0 0 256 1,
    .scan 0 ⟨nt, []⟩ 0 0 0 0 256, .samplerMerge 0 ⟨nt, []⟩ 256 0 0, .samplerMerge 0 ⟨nt, []⟩ 0 256 0, .samplerMerge 0 ⟨nt, []⟩ 0 0 256, .draw 0 ⟨nt, []⟩ 32 0, .draw 0 ⟨nt, []⟩ 0 256,
    .verify 0 ⟨nt, []⟩ 32] = true := by decide +kernel
theorem test_ill_transfer : allIll [.xfrCp 0 nt 32 0 1 0 [], .xfrCp 0 nt 0 32 1 0 [], .xfrCp 0 nt 0 0 4096 0 [], .xfrCp 0 nt 0 0 1 2 [],
    .xfrGather 0 srcTa 0 0 1 0 0 [], .xfrGather 0 nt 32 0 1 0 0 [], .xfrGather 0 nt 0 32 1 0 0 [], .xfrGather 0 nt 0 0 4096 0 0 [],
    .xfrGather 0 nt 0 0 1 32 0 [], .xfrGather 0 nt 0 0 1 0 2 [], .xfrMapload 0 srcTa 0 0 1, .xfrMapload 0 nt 8 0 1, .xfrMapload 0 nt 0 32 1,
    .xfrMapload 0 nt 0 0 33, .xfrScatter 0 32 0 ⟨0, []⟩ 0 1, .xfrScatter 0 0 8 ⟨0, []⟩ 0 1, .xfrScatter 0 0 0 ⟨32, []⟩ 0 1, .xfrScatter 0 0 0 ⟨0, []⟩ 32 1,
    .xfrScatter 0 0 0 ⟨0, []⟩ 0 17, .xfrRelease 0 256, .xfrSignal 0 65536 0, .xfrSignal 0 0 65536, .xfrEmit 0 32, .xfrDflush 0 32] = true := by decide +kernel

end Sys2Proof.Tests
end

section
/-!
PROOF. The pointer registers (R223): what a write leaves them, and the addition that `CTL.PADD` makes on the offset field (R230).
-/
namespace Sys2Proof.Machine

/-! ## A write to a pointer register -/

/-- An update of one core changes that core by the function given. -/
@[simp] theorem State.core_updCore (s : State) (c : CoreId) (f : Core → Core) : (s.updCore c f).core c = f (s.core c) :=
  s.core_setCore c _

/-- A write to `PT0` is ignored (R223 item 1). -/
@[simp] theorem State.setPtr_zero (s : State) (c : CoreId) (v : BitVec 48) : s.setPtr c 0 v = s := rfl

theorem State.setPtr_of_ne_zero (s : State) (c : CoreId) {i : Nat} (v : BitVec 48) (h : i ≠ 0) :
    s.setPtr c i v = s.updCore c (fun k => { k with pts := fset 0 k.pts i v }) := if_neg h

@[simp] theorem State.ptr_zero (s : State) (c : CoreId) : s.ptr c 0 = 0 := rfl

theorem State.ptr_of_ne_zero (s : State) (c : CoreId) {i : Nat} (h : i ≠ 0) : s.ptr c i = fget 0 (s.core c).pts i := if_neg h

theorem State.ptr_setPtr_self (s : State) (c : CoreId) {i : Nat} (v : BitVec 48) (h : i ≠ 0) : (s.setPtr c i v).ptr c i = v := by
  simp [State.ptr_of_ne_zero _ _ h, State.setPtr_of_ne_zero _ _ _ h]

theorem State.ptr_setPtr_ne (s : State) (c : CoreId) {i j : Nat} (v : BitVec 48) (h : j ≠ i) : (s.setPtr c i v).ptr c j = s.ptr c j := by
  by_cases hi : i = 0
  · subst hi
    rw [State.setPtr_zero]
  · by_cases hj : j = 0
    · subst hj
      rw [State.ptr_zero, State.ptr_zero]
    · rw [State.ptr_of_ne_zero _ _ hj, State.ptr_of_ne_zero _ _ hj, State.setPtr_of_ne_zero _ _ _ hi, State.core_updCore]
      exact fget_fset_ne _ _ _ _ _ _ h

theorem OnlyCore.refl (s : State) (c : CoreId) : OnlyCore s s c := ⟨rfl, fun _ _ => rfl⟩

/-- A write to a pointer changes its core only. -/
theorem State.setPtr_only (s : State) (c : CoreId) (i : Nat) (v : BitVec 48) : OnlyCore s (s.setPtr c i v) c := by
  by_cases hi : i = 0
  · subst hi
    exact OnlyCore.refl s c
  · rw [State.setPtr_of_ne_zero _ _ _ hi]
    exact s.updCore_only c _

/-! ## The addition of `CTL.PADD` (R230) -/

/-- The offset field of a pointer moved by 64 x `IMM`, modulo 2^29. -/
def movedOffset (p : BitVec 48) (imm : Int) : Nat := ((((p.toNat % 2 ^ 29 : Nat) : Int) + 64 * imm) % 2 ^ 29).toNat

/-- The pointer that `CTL.PADD` writes: the moved offset under the fields above it. -/
def paddPtr (p : BitVec 48) (imm : Int) : BitVec 48 := BitVec.ofNat 48 (p.toNat / 2 ^ 29 * 2 ^ 29 + movedOffset p imm)

theorem execCtlPadd_eq (s : State) (core : CoreId) {pt : Nat} (imm : Int) (h : pt < 32) :
    execCtlPadd core pt imm s = .next (s.addOps core [{ at_ := s.cycle core, port := 0, act := .ptr pt (paddPtr (s.ptr core pt) imm) }]) :=
  if_neg (by omega)

theorem movedOffset_cast (p : BitVec 48) (imm : Int) :
    (movedOffset p imm : Int) = (((p.toNat % 2 ^ 29 : Nat) : Int) + 64 * imm) % 2 ^ 29 :=
  Int.toNat_of_nonneg (Int.emod_nonneg _ (by decide))

theorem movedOffset_lt (p : BitVec 48) (imm : Int) : movedOffset p imm < 2 ^ 29 := by
  have := movedOffset_cast p imm
  omega

/-- Fields and moved offset fit the 48 bits of a pointer: nothing is cut off. -/
theorem paddPtr_toNat (p : BitVec 48) (imm : Int) : (paddPtr p imm).toNat = p.toNat / 2 ^ 29 * 2 ^ 29 + movedOffset p imm := by
  have hp : p.toNat < 2 ^ 48 := p.isLt
  have ho := movedOffset_lt p imm
  rw [paddPtr, BitVec.toNat_ofNat, Nat.mod_eq_of_lt (by omega)]

theorem paddPtr_offset (p : BitVec 48) (imm : Int) : (paddPtr p imm).toNat % 2 ^ 29 = movedOffset p imm := by
  have ho := movedOffset_lt p imm
  rw [paddPtr_toNat]
  omega

theorem paddPtr_fields (p : BitVec 48) (imm : Int) : (paddPtr p imm).toNat / 2 ^ 29 = p.toNat / 2 ^ 29 := by
  have ho := movedOffset_lt p imm
  rw [paddPtr_toNat]
  omega

/-- Settles O3: the value written is `paddPtr` of the pointer read at issue, and the landing is one write to a pointer register. -/
theorem pointerAddMovesTheOffset : Obligations.PointerAddMovesTheOffset := by
  unfold Obligations.PointerAddMovesTheOffset
  intro s core pt imm hpt
  refine ⟨paddPtr (s.ptr core pt) imm, execCtlPadd_eq s core imm hpt, ?_, paddPtr_fields _ imm, fun u _ => ⟨?_, ?_, ?_, ?_⟩⟩
  · rw [paddPtr_offset]
    exact movedOffset_cast _ imm
  · exact u.ptr_setPtr_self core _
  · rintro rfl
    exact u.setPtr_zero core _
  · exact fun _ => u.ptr_setPtr_ne core _
  · exact u.setPtr_only core pt _

end Sys2Proof.Machine
end

section
/-!
PROOF. The hardware thermal duty (R468): what a write to one field of a register leaves of its other fields, which registers a sensor sample
writes, and the duty after a sample and after 1 ms.
-/
namespace Sys2Proof.Machine

/-! ## The fields of a register -/

theorem testBit_bits (w hi lo i : Nat) : (bits w hi lo).testBit i = (decide (i < hi + 1 - lo) && w.testBit (lo + i)) := by
  rw [bits, Nat.testBit_mod_two_pow, Nat.testBit_shiftRight]

/-- The bits above a field, the field's new bits and the bits below it. -/
theorem setBits_eq (w v : Nat) {hi lo : Nat} (h : lo ≤ hi) :
    setBits w hi lo v = 2 ^ (hi + 1) * (w / 2 ^ (hi + 1)) + (2 ^ lo * (v % 2 ^ (hi + 1 - lo)) + w % 2 ^ lo) := by
  have hpow : 2 ^ (hi + 1) = 2 ^ lo * 2 ^ (hi + 1 - lo) := by rw [← Nat.pow_add]; congr 1; omega
  have hlow : w % 2 ^ (hi + 1) = w % 2 ^ lo + 2 ^ lo * bits w hi lo := by
    rw [hpow, Nat.mod_mul, bits, Nat.shiftRight_eq_div_pow]
  have hw := Nat.div_add_mod w (2 ^ (hi + 1))
  simp only [setBits, Nat.mul_comm _ (2 ^ lo)]
  omega

theorem testBit_setBits (w v i : Nat) {hi lo : Nat} (h : lo ≤ hi) :
    (setBits w hi lo v).testBit i = if lo ≤ i ∧ i ≤ hi then v.testBit (i - lo) else w.testBit i := by
  have hmod := Nat.mod_lt w (Nat.two_pow_pos lo)
  have hfit : 2 ^ lo * (v % 2 ^ (hi + 1 - lo)) + w % 2 ^ lo < 2 ^ (hi + 1) := by
    have hv := Nat.mod_lt v (Nat.two_pow_pos (hi + 1 - lo))
    calc 2 ^ lo * (v % 2 ^ (hi + 1 - lo)) + w % 2 ^ lo
        < 2 ^ lo * (v % 2 ^ (hi + 1 - lo) + 1) := by rw [Nat.mul_add]; omega
      _ ≤ 2 ^ lo * 2 ^ (hi + 1 - lo) := Nat.mul_le_mul_left _ hv
      _ = 2 ^ (hi + 1) := by rw [← Nat.pow_add]; congr 1; omega
  rw [setBits_eq w v h, Nat.testBit_two_pow_mul_add _ hfit, Nat.testBit_two_pow_mul_add _ hmod]
  rcases Nat.lt_or_ge i lo with hlo | hlo
  · rw [if_pos (by omega), if_pos hlo, if_neg (by omega), Nat.testBit_mod_two_pow, decide_eq_true hlo, Bool.true_and]
  · rcases Nat.lt_or_ge hi i with hhi | hhi
    · rw [if_neg (by omega), if_neg (by omega), Nat.testBit_div_two_pow]
      congr 1; omega
    · rw [if_pos (by omega), if_neg (by omega), if_pos ⟨hlo, hhi⟩, Nat.testBit_mod_two_pow, decide_eq_true (by omega), Bool.true_and]

/-- A field holds what was written, cut to its width. -/
theorem bits_setBits_self (w v : Nat) {hi lo : Nat} (h : lo ≤ hi) : bits (setBits w hi lo v) hi lo = v % 2 ^ (hi + 1 - lo) := by
  refine Nat.eq_of_testBit_eq fun i => ?_
  rw [testBit_bits, testBit_setBits _ _ _ h, Nat.testBit_mod_two_pow]
  by_cases hi' : i < hi + 1 - lo
  · rw [if_pos (by omega), Nat.add_sub_cancel_left]
  · simp [hi']

/-- A field is not disturbed by a write to another field that shares no bit with it. -/
theorem bits_setBits_disjoint (w v : Nat) {hi lo hi' lo' : Nat} (h : lo ≤ hi) (hd : hi < lo' ∨ hi' < lo) :
    bits (setBits w hi lo v) hi' lo' = bits w hi' lo' := by
  refine Nat.eq_of_testBit_eq fun i => ?_
  rw [testBit_bits, testBit_bits, testBit_setBits _ _ _ h]
  by_cases hi2 : i < hi' + 1 - lo'
  · rw [if_neg (by omega)]
  · simp [hi2]

/-- The bits of a number above a field do not count. -/
theorem bits_mod_two_pow (w : Nat) {n hi : Nat} (lo : Nat) (h : hi < n) : bits (w % 2 ^ n) hi lo = bits w hi lo := by
  refine Nat.eq_of_testBit_eq fun i => ?_
  rw [testBit_bits, testBit_bits, Nat.testBit_mod_two_pow]
  by_cases hi' : i < hi + 1 - lo
  · rw [decide_eq_true (p := lo + i < n) (by omega), Bool.true_and]
  · simp [hi']

theorem State.fld_setRegN (s : State) (r v : Nat) {hi : Nat} (lo : Nat) (h : hi < 32) : (s.setRegN r v).fld r hi lo = bits v hi lo := by
  rw [State.fld, State.regN, State.setRegN, State.reg_setReg_self, BitVec.toNat_ofNat, bits_mod_two_pow v lo h]

theorem State.fld_setFld_self (s : State) (r v : Nat) {hi lo : Nat} (h : lo ≤ hi) (h32 : hi < 32) :
    (s.setFld r hi lo v).fld r hi lo = v % 2 ^ (hi + 1 - lo) := by
  rw [State.setFld, State.fld_setRegN _ _ _ _ h32, bits_setBits_self _ _ h]

theorem State.fld_setFld_disjoint (s : State) (r v : Nat) {hi lo hi' lo' : Nat} (h : lo ≤ hi) (h32 : hi' < 32) (hd : hi < lo' ∨ hi' < lo) :
    (s.setFld r hi lo v).fld r hi' lo' = s.fld r hi' lo' := by
  rw [State.setFld, State.fld_setRegN _ _ _ _ h32, bits_setBits_disjoint _ _ h hd, State.fld]

theorem State.fld_congr {s t : State} {r : Nat} (h : t.reg r = s.reg r) (hi lo : Nat) : t.fld r hi lo = s.fld r hi lo := by
  rw [State.fld, State.fld, State.regN, State.regN, h]

/-! ## The registers that a sensor sample leaves alone -/

/-- The registers that sensors, events, the event log, the device's maxima and the causeway ports do not write: those below the THM block, and those
above `THM_EVENT` and below the TEL block. -/
def OffEvents (q : Nat) : Prop := q < rThm 0 ∨ (rThm 0x10 < q ∧ q < rTel 0)

theorem offEvents_devState : OffEvents (rSys 1) := Or.inl (by decide)

theorem offEvents_isle {isle : Nat} (h : isle < 80) : OffEvents (rThm (0x100 + isle)) := by
  refine Or.inr ⟨?_, ?_⟩ <;> (simp only [rThm, rTel]; omega)

theorem OffEvents.ne_thm {q w : Nat} (hq : OffEvents q) (h : w ≤ 0x10) : q ≠ rThm w := by
  simp only [OffEvents, rThm, rTel] at *
  omega

theorem OffEvents.ne_of_tel_le {q r : Nat} (hq : OffEvents q) (h : rTel 0 ≤ r) : q ≠ r := by
  simp only [OffEvents, rThm, rTel] at *
  omega

theorem OffEvents.ne_sensor {q : Nat} (hq : OffEvents q) (isle n : Nat) : q ≠ rSensor isle n :=
  hq.ne_of_tel_le (by simp only [rTel, rSensor, rIsle]; omega)

theorem OffEvents.ne_cwy {q : Nat} (hq : OffEvents q) (w : Nat) : q ≠ rCwy w :=
  hq.ne_of_tel_le (by simp only [rTel, rCwy]; omega)

theorem OffEvents.not_dropReg {q : Nat} (hq : OffEvents q) : ¬ dropReg q := by
  simp only [OffEvents, dropReg, rThm, rTel] at *
  omega

/-- A register that no step of a pass over a list writes. -/
theorem State.reg_foldl {α : Type} {f : State → α → State} {q : Nat} (h : ∀ s a, (f s a).reg q = s.reg q) (l : List α) (s : State) :
    (l.foldl f s).reg q = s.reg q :=
  List.foldlRecOn (motive := fun t => t.reg q = s.reg q) l f rfl (fun t ht a _ => (h t a).trans ht)

@[simp] theorem State.reg_updHeat (s : State) (isle : Nat) (f : Heat → Heat) (q : Nat) : (s.updHeat isle f).reg q = s.reg q := rfl
@[simp] theorem State.reg_repLog (s : State) (d : Defect) (q : Nat) : (s.repLog d).reg q = s.reg q := rfl
@[simp] theorem State.reg_fabric (s : State) (f : Fabric) (q : Nat) : ({ s with fabric := f } : State).reg q = s.reg q := rfl
/-- What the wafers hold is lost (R471). -/
@[simp] theorem State.reg_wafersLost (s : State) (q : Nat) : ({ s with mem := [], loads := [] } : State).reg q = s.reg q := rfl

theorem State.reg_of_regs {s t : State} (h : t.regs = s.regs) (q : Nat) : t.reg q = s.reg q := by
  rw [State.reg, State.reg, h]

/-- Packets that leave a port change no register. -/
theorem State.regs_pump (s : State) (n k : Nat) : (s.pump n k).regs = s.regs := by
  induction k generalizing s with
  | zero => rfl
  | succ k ih =>
    unfold State.pump
    split
    · rfl
    · exact ih _

theorem State.regs_askNumber (s : State) (ident pref : Nat) : (s.askNumber ident pref).regs = s.regs := by
  unfold State.askNumber
  split
  · exact State.regs_pump _ _ _
  · rfl

section
variable {q : Nat} (hq : OffEvents q)
include hq

theorem State.reg_thmEvent (s : State) (bit cls isle a b : Nat) : (s.thmEvent bit cls isle a b).reg q = s.reg q := by
  have hlog : LogFrame s (s.thmEvent bit cls isle a b) [rThm 0x10] :=
    (LogFrame.orReg s _ _ _ (by simp)).trans (State.log_frame _ _ _)
  exact hlog.2 q (by simpa using hq.ne_thm (Nat.le_refl _)) hq.not_dropReg

theorem State.reg_mapSensor (s : State) (isle n : Nat) : (s.mapSensor isle n).reg q = s.reg q := by
  unfold State.mapSensor
  split
  · rfl
  · split
    · exact State.reg_thmEvent hq ..
    · split
      · rfl
      · exact State.reg_thmEvent hq ..

theorem State.reg_mapWaiting (s : State) (isle : Nat) : (s.mapWaiting isle).reg q = s.reg q :=
  State.reg_foldl (fun t n => State.reg_mapSensor hq t isle n) _ _

theorem State.reg_breakSensor (s : State) (isle n : Nat) : (s.breakSensor isle n).reg q = s.reg q := by
  have hnoted : ((s.setFld (rSensor isle n) 15 14 1).thmEvent 2 2 isle n 0).reg q = s.reg q :=
    (State.reg_thmEvent hq ..).trans (s.reg_setFld_ne _ _ _ _ _ (hq.ne_sensor isle n))
  unfold State.breakSensor
  dsimp only
  split
  · rfl
  · split
    · split
      · rw [State.reg_repLog, hnoted]
      · rw [State.reg_thmEvent hq, State.reg_updHeat, State.reg_repLog, hnoted]
    · rw [State.reg_mapSensor hq, State.reg_repLog, hnoted]

theorem State.reg_devMaxima (s : State) : s.devMaxima.reg q = s.reg q := by
  unfold State.devMaxima
  dsimp only
  split
  · rfl
  · simp [hq.ne_thm]

/-- The thresholds write the thermal state of their isle, its throttle counter and the events. -/
theorem State.reg_thresholds {isle : Nat} (hstate : q ≠ rThm (0x100 + isle)) (hcount : q ≠ rThm (0x200 + isle)) (s : State)
    (t : Int) : (s.thresholds isle t).reg q = s.reg q := by
  unfold State.thresholds
  extract_lets r warn thr s₁ s₂ h s₃
  have hr : q ≠ r := hstate
  have h₁ : s₁.reg q = s.reg q := by
    unfold s₁
    rw [State.reg_setFld_ne _ _ _ _ _ _ hr, State.reg_setFld_ne _ _ _ _ _ _ hr]
  have h₂ : s₂.reg q = s₁.reg q := by
    unfold s₂
    split
    · rw [State.reg_thmEvent hq, State.reg_setFld_ne _ _ _ _ _ _ hr]
    · split
      · exact State.reg_setFld_ne _ _ _ _ _ _ hr
      · rfl
  have h₃ : s₃.reg q = s₂.reg q := by
    unfold s₃
    split
    · rw [State.reg_thmEvent hq, State.satFld, State.reg_setFld_ne _ _ _ _ _ _ hcount, State.reg_setFld_ne _ _ _ _ _ _ hr,
        State.reg_setFld_ne _ _ _ _ _ _ hr]
    · split
      · exact State.reg_setFld_ne _ _ _ _ _ _ hr
      · rfl
  rw [State.reg_updHeat, h₃, h₂, h₁]

theorem State.reg_alarm {bit : Nat} (s : State) (r : EvRec) : (s.alarm bit r).reg q = s.reg q := by
  have hlog := s.alarm_frame bit r [rTel 8, rTel (0x10 + bit)] (by simp) (by simp)
  have htel (w : Nat) : q ≠ rTel w := hq.ne_of_tel_le (by simp only [rTel]; omega)
  exact hlog.2 q (by simp [htel]) hq.not_dropReg

theorem State.reg_portsDown (s : State) : s.portsDown.reg q = s.reg q := by
  have hport (t : State) (n : Nat) : ((t.setFld (rCwy (0x10 + n)) 2 0 0).setFld (rCwy (0x10 + n)) 7 7 0).reg q = t.reg q := by
    simp [hq.ne_cwy]
  unfold State.portsDown
  rw [State.reg_fabric]
  exact State.reg_foldl hport (List.range 16) s

theorem State.reg_elect (s : State) : s.elect.reg q = s.reg q := by
  have hfields (f : Fabric) (d a : Nat) :
      ((({ s with fabric := f } : State).setFld (rCwy 0) 19 14 d).setFld (rCwy 0) 13 13 a).reg q = s.reg q := by
    rw [State.reg_setFld_ne _ _ _ _ _ _ (hq.ne_cwy 0), State.reg_setFld_ne _ _ _ _ _ _ (hq.ne_cwy 0), State.reg_fabric]
  unfold State.elect
  dsimp only
  split
  · exact (State.reg_of_regs (State.regs_askNumber _ _ _) q).trans (hfields _ _ _)
  · exact hfields _ _ _

theorem State.reg_portsLost (s : State) : s.portsLost.reg q = s.reg q := by
  have hlogged (t : State) (n : Nat) : (t.cwyLog 1 (0x10 + n) n 0).reg q = t.reg q := (t.log_frame _ []).2 q (by simp) hq.not_dropReg
  calc s.portsLost.reg q
      = ((s.upPorts.foldl (fun (s : State) n => s.cwyLog 1 (0x10 + n) n 0) s).portsDown).reg q := State.reg_elect hq _
    _ = (s.upPorts.foldl (fun (s : State) n => s.cwyLog 1 (0x10 + n) n 0) s).reg q := State.reg_portsDown hq _
    _ = s.reg q := State.reg_foldl hlogged _ _

end

/-! ## The duty and the throttle state -/

/-- The duty and the throttle state of an isle are as before. -/
def ThrottleKept (isle : Nat) (s t : State) : Prop :=
  t.fld (rThm (0x100 + isle)) 19 15 = s.fld (rThm (0x100 + isle)) 19 15 ∧ t.fld (rThm (0x100 + isle)) 13 13 = s.fld (rThm (0x100 + isle)) 13 13

/-- R468 item 1: an isle that has entered the throttle state has a duty of at least 4; one that has not keeps its duty. -/
def DutyAtEntry (isle : Nat) (s t : State) : Prop :=
  t.fld (rThm (0x100 + isle)) 19 15 =
    if s.fld (rThm (0x100 + isle)) 13 13 = 0 ∧ t.fld (rThm (0x100 + isle)) 13 13 = 1 then Nat.max 4 (s.fld (rThm (0x100 + isle)) 19 15)
    else s.fld (rThm (0x100 + isle)) 19 15

section
variable {isle : Nat} {s t u : State}

theorem ThrottleKept.of_reg (h : t.reg (rThm (0x100 + isle)) = s.reg (rThm (0x100 + isle))) : ThrottleKept isle s t :=
  ⟨State.fld_congr h 19 15, State.fld_congr h 13 13⟩

theorem ThrottleKept.trans (h : ThrottleKept isle s t) (k : ThrottleKept isle t u) : ThrottleKept isle s u :=
  ⟨k.1.trans h.1, k.2.trans h.2⟩

/-- A field that shares no bit with the duty and the throttle state. -/
theorem ThrottleKept.setFld (s : State) {r hi lo : Nat} (v : Nat) (h : lo ≤ hi) (hd : hi < 13 ∨ (13 < lo ∧ hi < 15) ∨ 19 < lo) :
    ThrottleKept isle s (s.setFld r hi lo v) := by
  by_cases hr : r = rThm (0x100 + isle)
  · subst hr
    exact ⟨s.fld_setFld_disjoint _ v h (by decide) (by omega), s.fld_setFld_disjoint _ v h (by decide) (by omega)⟩
  · exact .of_reg (s.reg_setFld_ne _ _ _ _ _ (Ne.symm hr))

theorem ThrottleKept.thmEvent (hisle : isle < 80) (s : State) (bit cls i a b : Nat) : ThrottleKept isle s (s.thmEvent bit cls i a b) :=
  .of_reg (State.reg_thmEvent (offEvents_isle hisle) ..)

theorem DutyAtEntry.of_kept (h : ThrottleKept isle s t) : DutyAtEntry isle s t := by
  unfold DutyAtEntry
  rw [h.1, h.2, if_neg (by omega)]

theorem DutyAtEntry.after_kept (h : ThrottleKept isle s t) (k : DutyAtEntry isle t u) : DutyAtEntry isle s u := by
  unfold DutyAtEntry at *
  rw [k, h.1, h.2]

theorem DutyAtEntry.then_kept (h : DutyAtEntry isle s t) (k : ThrottleKept isle t u) : DutyAtEntry isle s u := by
  unfold DutyAtEntry at *
  rw [k.1, k.2, h]

theorem ThrottleKept.foldl {α : Type} {f : State → α → State} (h : ∀ s a, ThrottleKept isle s (f s a)) (l : List α) (s : State) :
    ThrottleKept isle s (l.foldl f s) :=
  List.foldlRecOn (motive := ThrottleKept isle s) l f ⟨rfl, rfl⟩ (fun t ht a _ => ht.trans (h t a))

/-- Leaving the throttle state leaves the duty. -/
theorem dutyAtEntry_leave (isle : Nat) (s : State) : DutyAtEntry isle s (s.setFld (rThm (0x100 + isle)) 13 13 0) := by
  unfold DutyAtEntry
  rw [State.fld_setFld_disjoint _ _ _ (by decide) (by decide) (by decide), State.fld_setFld_self _ _ _ (by decide) (by decide), if_neg (by simp)]

end

/-! ## A sensor sample -/

section
variable {isle : Nat} (hisle : isle < 80)
include hisle

/-- The step of R468 item 1: the throttle state is entered with a duty of at least 4. -/
theorem dutyAtEntry_enter {s : State} (hout : s.fld (rThm (0x100 + isle)) 13 13 ≠ 1) :
    DutyAtEntry isle s ((((s.setFld (rThm (0x100 + isle)) 13 13 1).setFld (rThm (0x100 + isle)) 19 15
      (Nat.max 4 (s.fld (rThm (0x100 + isle)) 19 15))).satFld (rThm (0x200 + isle)) 27 12 1).thmEvent 1 2 isle 255 0) := by
  have hother : rThm (0x100 + isle) ≠ rThm (0x200 + isle) := by simp only [rThm]; omega
  refine DutyAtEntry.then_kept ?_ ((ThrottleKept.of_reg (State.reg_setFld_ne _ _ _ _ _ _ hother)).trans (.thmEvent hisle ..))
  have hbit : s.fld (rThm (0x100 + isle)) 13 13 < 2 := Nat.mod_lt _ (by decide)
  have hduty : s.fld (rThm (0x100 + isle)) 19 15 < 32 := Nat.mod_lt _ (by decide)
  have hfits : Nat.max 4 (s.fld (rThm (0x100 + isle)) 19 15) < 32 := Nat.max_lt.2 ⟨by decide, hduty⟩
  unfold DutyAtEntry
  rw [State.fld_setFld_self _ _ _ (by decide) (by decide), State.fld_setFld_disjoint _ _ _ (by decide) (by decide) (by decide),
    State.fld_setFld_self _ _ _ (by decide) (by decide), if_pos ⟨by omega, rfl⟩]
  exact Nat.mod_eq_of_lt hfits

/-- The thresholds act on the throttle state last: what comes before leaves it and the duty. -/
theorem dutyAtEntry_thresholds (s : State) (t : Int) : DutyAtEntry isle s (s.thresholds isle t) := by
  unfold State.thresholds
  extract_lets r warn thr s₁ s₂ h s₃
  have h₁ : ThrottleKept isle s s₁ := (ThrottleKept.setFld s _ (by decide) (by decide)).trans (.setFld _ _ (by decide) (by decide))
  have h₂ : ThrottleKept isle s₁ s₂ := by
    unfold s₂
    split
    · exact (ThrottleKept.setFld s₁ _ (by decide) (by decide)).trans (.thmEvent hisle ..)
    · split
      · exact .setFld s₁ _ (by decide) (by decide)
      · exact ⟨rfl, rfl⟩
  have h₃ : DutyAtEntry isle s₂ s₃ := by
    unfold s₃
    split
    next henter =>
      have hout : s₂.fld r 13 13 ≠ 1 := by
        rw [(h₁.trans h₂).2]
        simpa [thr] using (Bool.and_eq_true_iff.1 henter).1
      exact dutyAtEntry_enter hisle hout
    next =>
      split
      · exact dutyAtEntry_leave isle s₂
      · exact .of_kept ⟨rfl, rfl⟩
  exact (DutyAtEntry.after_kept (h₁.trans h₂) h₃).then_kept (.of_reg (State.reg_updHeat ..))

theorem throttleKept_enter (s : State) (st : Nat) (hst : st < 0x100) : ThrottleKept isle s (s.enter st) := by
  have hentered : ThrottleKept isle s (s.setFld (rSys 1) 3 0 st) := .setFld s _ (by decide) (by decide)
  have hnote : rThm (0x100 + isle) ≠ rSys (0x10 + st) := by simp only [rThm, rSys]; omega
  unfold State.enter
  dsimp only
  split
  · exact hentered.trans (.of_reg (State.reg_setRegN_ne _ _ _ _ hnote))
  · exact hentered

/-- The shutdown of R471 leaves the duty and the throttle state of every isle. -/
theorem throttleKept_thermalShutdown (s : State) (i sensor : Nat) : ThrottleKept isle s (s.thermalShutdown i sensor) := by
  have hq := offEvents_isle hisle
  unfold State.thermalShutdown
  extract_lets s₁ s₂ s₃
  have h₁ : ThrottleKept isle s s₁ := .of_reg (State.reg_alarm hq ..)
  clear_value s₁
  have h₂ : ThrottleKept isle s₁ s₂ := by
    refine ThrottleKept.foldl (fun u i => ?_) _ _
    have hrate : ThrottleKept isle u (u.setFld (rThm (0x100 + i)) 25 24 0) := .setFld u _ (by decide) (by decide)
    dsimp only
    split
    · exact hrate
    · exact hrate.trans (.setFld _ _ (by decide) (by decide))
  clear_value s₂
  have h₃ : ThrottleKept isle s₂ s₃ := by
    refine ThrottleKept.foldl (fun u p => ?_) _ _
    split
    · exact .of_reg (State.reg_of_regs rfl _)
    · exact ⟨rfl, rfl⟩
  clear_value s₃
  have h₄ : ThrottleKept isle s₃ ({ s₃ with mem := [], loads := [] } : State).portsLost :=
    .of_reg ((State.reg_portsLost hq _).trans (s₃.reg_wafersLost _))
  exact ((h₁.trans h₂).trans h₃).trans (h₄.trans (throttleKept_enter hisle _ 10 (by decide)))

/-- Outside Shutdown a sample ends in a state with the duty of R468 item 1, or in the shutdown (R471) of such a state. -/
theorem execSensorSample_ends {s : State} (hdev : s.devState ≠ 10) (rd : List Int) :
    ∃ u, DutyAtEntry isle s u ∧
      (execSensorSample isle rd s = .next u ∨ ∃ n, execSensorSample isle rd s = .next (u.thermalShutdown isle n)) := by
  by_cases hnone : 80 ≤ isle ∨ rd.length ≠ 36 ∨ s.devState = 0 ∨ s.pw.vsOff.contains isle
  · exact ⟨s, .of_kept ⟨rfl, rfl⟩, .inl (if_pos hnone)⟩
  · rw [execSensorSample, if_neg hnone]
    extract_lets value hot twice hist full s₁ s₂ s₃ out s₄ s₅ s₆
    have hread {q : Nat} (hq : OffEvents q) : s₂.reg q = s.reg q := by
      unfold s₂
      rw [State.reg_updHeat]
      exact State.reg_foldl (fun u n => u.reg_setFld_ne _ _ _ _ _ (hq.ne_sensor isle n)) _ _
    clear_value s₂
    have hact : DutyAtEntry isle s₂ s₃ ∧ s₃.devState = s₂.devState := by
      unfold s₃
      split
      next t _ =>
        have hdevState : (s₂.thresholds isle t).reg (rSys 1) = s₂.reg (rSys 1) :=
          State.reg_thresholds offEvents_devState (by simp only [rSys, rThm]; omega) (by simp only [rSys, rThm]; omega) s₂ _
        exact ⟨dutyAtEntry_thresholds hisle _ _, State.fld_congr hdevState 3 0⟩
      · exact ⟨.of_kept ⟨rfl, rfl⟩, rfl⟩
    clear_value s₃
    have hafter {q : Nat} (hq : OffEvents q) : s₆.reg q = s₃.reg q := by
      have h₄ : s₄.reg q = s₃.reg q := State.reg_foldl (fun u n => State.reg_breakSensor hq u isle n) _ _
      clear_value s₄
      have h₅ : s₅.reg q = s₄.reg q := by
        unfold s₅
        split
        · exact State.reg_mapWaiting hq _ _
        · rfl
      exact (State.reg_devMaxima hq _).trans (h₅.trans h₄)
    clear_value s₆
    have hduty : DutyAtEntry isle s s₆ :=
      (DutyAtEntry.after_kept (.of_reg (hread (offEvents_isle hisle))) hact.1).then_kept (.of_reg (hafter (offEvents_isle hisle)))
    have hstate : s₆.devState ≠ 10 := by
      have hsame : s₆.devState = s.devState := 
        (State.fld_congr (hafter offEvents_devState) 3 0).trans (hact.2.trans (State.fld_congr (hread offEvents_devState) 3 0))
      rwa [hsame]
    split
    · contradiction
    · exact ⟨_, hduty, .inr ⟨_, rfl⟩⟩
    · exact ⟨_, hduty, .inl rfl⟩

theorem sensorSample_dutyAtEntry {s : State} (hdev : s.devState ≠ 10) (rd : List Int) :
    Yields (.sensorSample isle rd) s (DutyAtEntry isle s) := by
  obtain ⟨u, hduty, hnext | ⟨n, hnext⟩⟩ := execSensorSample_ends hisle hdev rd
  · exact ⟨u, hnext, hduty⟩
  · exact ⟨_, hnext, hduty.then_kept (throttleKept_thermalShutdown hisle u isle n)⟩

end

/-! ## One millisecond of an isle -/

@[simp] theorem State.heatOf_updHeat_self (s : State) (isle : Nat) (f : Heat → Heat) : (s.updHeat isle f).heatOf isle = f (s.heatOf isle) :=
  fget_fset_self _ _ _ _

theorem State.heatOf_updHeat_ne (s : State) {isle i : Nat} (f : Heat → Heat) (h : i ≠ isle) : (s.updHeat isle f).heatOf i = s.heatOf i :=
  fget_fset_ne _ _ _ _ _ _ h

/-- The duty after 1 ms (R468 items 2 to 4). -/
def dutyAfterTick (s : State) (isle : Nat) : Nat :=
  let h := s.fld (rThm (0x100 + isle)) 19 15
  if s.fld (rThm (0x100 + isle)) 13 13 = 1 then
    (if 840 ≤ codeTemp (s.fld (rThm (0x100 + isle)) 11 0) then Nat.min 16 (h + 1) else h)
  else h - 1

/-- The note of the time since which an isle's duty is 16 (R472). -/
def noteFull (now duty : Nat) (x : Heat) : Heat := { x with fullAt := if duty = 16 then some (x.fullAt.getD now) else none }

/-- The state after 1 ms of an isle. -/
def afterDutyTick (s : State) (isle : Nat) : State :=
  (s.setFld (rThm (0x100 + isle)) 19 15 (dutyAfterTick s isle)).updHeat isle (noteFull s.now (dutyAfterTick s isle))

theorem execHwDutyTick_eq (s : State) {isle : Nat} (hisle : isle < 80) : execHwDutyTick isle s = .next (afterDutyTick s isle) := by
  have hnote : noteFull s.now (dutyAfterTick s isle) = fun x => { x with fullAt := if dutyAfterTick s isle = 16 then (match x.fullAt with
      | some a => some a
      | none => some s.now) else none } := by
    funext x
    unfold noteFull
    cases x.fullAt <;> rfl
  rw [execHwDutyTick, if_neg (by omega), afterDutyTick, hnote]
  rfl

section
variable {s : State} {isle : Nat}

theorem dutyAfterTick_le (h : s.fld (rThm (0x100 + isle)) 19 15 ≤ 16) : dutyAfterTick s isle ≤ 16 := by
  unfold dutyAfterTick
  dsimp only
  split
  · split
    · exact Nat.min_le_left _ _
    · exact h
  · omega

theorem afterDutyTick_duty (h : s.fld (rThm (0x100 + isle)) 19 15 ≤ 16) :
    (afterDutyTick s isle).fld (rThm (0x100 + isle)) 19 15 = dutyAfterTick s isle := by
  have hle := dutyAfterTick_le h
  rw [afterDutyTick, State.fld_congr (State.reg_updHeat ..), State.fld_setFld_self _ _ _ (by decide) (by decide)]
  exact Nat.mod_eq_of_lt (by omega)

theorem afterDutyTick_fullAt : ((afterDutyTick s isle).heatOf isle).fullAt =
    if dutyAfterTick s isle = 16 then some ((s.heatOf isle).fullAt.getD s.now) else none := by
  rw [afterDutyTick, State.heatOf_updHeat_self]
  rfl

end

/-- Settles O60: a sample enters the throttle state by the thresholds only, the one place of it that writes the duty; the tick writes
`dutyAfterTick`, which the field of five bits holds. -/
theorem hardwareThermalDuty : Obligations.HardwareThermalDuty := by
  unfold Obligations.HardwareThermalDuty
  intro s isle
  refine ⟨fun rd hdev hisle => sensorSample_dutyAtEntry hisle hdev rd, fun hisle => ⟨s, if_pos hisle, rfl⟩, fun hisle hle => ?_⟩
  refine ⟨afterDutyTick s isle, execHwDutyTick_eq s hisle, rfl, fun q hq => ?_, ?_, ?_, ?_, fun i hi => ?_, ?_, ?_⟩
  · rw [afterDutyTick, State.reg_updHeat]
    exact s.reg_setFld_ne _ _ _ _ _ (by simpa using hq)
  · intro hthrottle hhot
    rw [afterDutyTick_duty hle, dutyAfterTick, if_pos hthrottle, if_pos hhot]
  · intro hthrottle hwarm
    rw [afterDutyTick_duty hle, dutyAfterTick, if_pos hthrottle, if_neg (by omega)]
  · intro hleft
    rw [afterDutyTick_duty hle, dutyAfterTick, if_neg (by omega)]
  · exact State.heatOf_updHeat_ne _ _ hi
  · intro hfull hnone
    rw [afterDutyTick_duty hle] at hfull
    rw [afterDutyTick_fullAt, if_pos hfull, hnone]
    rfl
  · intro hbelow
    rw [afterDutyTick_duty hle] at hbelow
    rw [afterDutyTick_fullAt, if_neg hbelow]

end Sys2Proof.Machine
end
